-- ==== Sys2Proof/Word.lean ====
section
/-! DEFINITION. The byte, and the plainest arithmetic the manual's words rest on (section 5.4: saturating, clamped). -/

namespace Sys2Proof

/-- One byte of a frame, a record, the option row or the service line. -/
abbrev Byte := BitVec 8

/-- `v` kept within `lo..hi`: below the range the lower limit, above it the upper one. -/
def clampNat (lo hi v : Nat) : Nat := if v < lo then lo else if hi < v then hi else v

/-- One more than `v`, saturating at `limit` (section 5.4). -/
def satSucc (limit v : Nat) : Nat := if v < limit then v + 1 else limit

end Sys2Proof
end

