-- ==== Sys2Proof/Syntax.lean ====
section
/-! DEFINITION. The commands of the block: one constructor for each row of spec/opcode_table.json, with the operands the row's rule speaks of (log entry 1). -/

namespace Sys2Proof

/-- The two pockets: A is the upper, B the lower (section 5.2). -/
inductive Pocket where
  | a | b
  deriving DecidableEq, Repr

/-- The four heater stages, in stage id order (section 5.2). -/
inductive Stage where
  | a1 | a2 | b1 | b2
  deriving DecidableEq, Repr

/-- The three temperature channels (R74). -/
inductive Sensor where
  | exhaust (p : Pocket)
  | inlet
  deriving DecidableEq, Repr

/-- What the RAM returns during a frame: its bytes, and the bits of a last one cut short (R1). -/
structure RamAnswer where
  bytes : List Byte
  cut : List Bool
  deriving DecidableEq, Repr

/-- How a frame of the appliance controller ends: what had passed of a last data byte cut short by the release of select
(R1), and whether select becomes active again at that very moment, so that the controller's next frame takes the link and
a waiting service access goes on waiting (R13; log entry 42). -/
structure FrameEnd (α : Type) where
  cut : α
  again : Bool
  deriving DecidableEq, Repr

/-- The end of a frame of whole bytes, the link then free. -/
def FrameEnd.clean : FrameEnd (List Bool) := { cut := [], again := false }

/-- Where a PEEK or POKE goes and how it finds the link: the 24 address bits (R164), and whether the appliance controller's
select stands active, a frame of its own in progress, when the command is executed (R13; log entry 42). -/
structure AccessTarget where
  addr : BitVec 24
  busy : Bool
  deriving DecidableEq, Repr

/-- The commands: the steps of spec/opcode_table.json, in the table's order. -/
inductive Instr where
  /-- STORE_FRAME: the 24 address bits, the counted data bytes, its end with the bits of a last byte cut short (R1). -/
  | storeFrame (addr : BitVec 24) (data : List Byte) (ends : FrameEnd (List Bool))
  /-- KEEPALIVE: a STORE frame of one byte to the pocket's KEEPALIVE byte (R5). -/
  | keepalive (p : Pocket) (value : Byte)
  /-- START: a STORE frame that writes the pocket record's SEQ and ACTION bytes, ACTION being START (R8, R22). -/
  | start (p : Pocket) (seq : Byte)
  /-- PAUSE, written likewise (R23). -/
  | pause (p : Pocket) (seq : Byte)
  /-- RESUME, written likewise (R24). -/
  | resume (p : Pocket) (seq : Byte)
  /-- ADVANCE, written likewise (R25). -/
  | advance (p : Pocket) (seq : Byte)
  /-- ABORT, written likewise (R26). -/
  | abort (p : Pocket) (seq : Byte)
  /-- CLEAR, written likewise (R27). -/
  | clear (p : Pocket) (seq : Byte)
  /-- ALERT_ACK: the two ALERT_ACK bytes and then the common SEQ byte are stored (R153). -/
  | alertAck (causes : BitVec 16) (seq : Byte)
  /-- FAULT_LIST_CLEAR: its byte and then the common SEQ byte are stored (R157). -/
  | faultListClear (value : Byte) (seq : Byte)
  /-- FETCH_FRAME: the 24 address bits, the number of counted data bytes, its end with the number of bits of a last byte cut
  short. -/
  | fetchFrame (addr : BitVec 24) (count : Nat) (ends : FrameEnd Nat)
  /-- OPAQUE_FRAME: the controller's bytes (the code first), its end, and what the RAM returns during the frame (R1). -/
  | opaqueFrame (bytes : List Byte) (ends : FrameEnd (List Bool)) (answer : RamAnswer)
  /-- SHORT_FRAME: the bytes that passed before select was released, and its end (R1). -/
  | shortFrame (bytes : List Byte) (ends : FrameEnd (List Bool))
  /-- SERVICE_ACCESS_START (R13). -/
  | serviceAccessStart
  /-- SERVICE_ACCESS_COMPLETE (R13). -/
  | serviceAccessComplete
  /-- LINK_BUSY (R13). -/
  | linkBusy
  /-- SERVICE_ACCESS_COLLIDED: the data bytes completed before the cut, and the controller's frame that follows
  (its bytes, its end, and what the RAM returns if the frame is opaque) (R14). -/
  | serviceAccessCollided (done : Nat) (bytes : List Byte) (ends : FrameEnd (List Bool)) (answer : RamAnswer)
  /-- POWER_ON_RESET (R173). -/
  | powerOnReset
  /-- POWER_FAIL (R173). -/
  | powerFail
  /-- PIN_RESET (R173). -/
  | pinReset
  /-- RESET_RELEASE (R173). -/
  | resetRelease
  /-- SERVICE_RESET (R168). -/
  | serviceReset
  /-- START_UP_WAIT_END (R172). -/
  | startUpWaitEnd
  /-- TIME_LIMIT_REACHED (R31). -/
  | timeLimitReached (p : Pocket)
  /-- EXTENSION_END (R33). -/
  | extensionEnd (p : Pocket)
  /-- COOL_TIME_EXPIRY (R35). -/
  | coolTimeExpiry (p : Pocket)
  /-- CREASE_BURST (R37). -/
  | creaseBurst (p : Pocket)
  /-- CREASE_GUARD_END (R38). -/
  | creaseGuardEnd (p : Pocket)
  /-- FRESHNESS_EXPIRY (R45). -/
  | freshnessExpiry (p : Pocket)
  /-- TACH_PULSE (R53). -/
  | tachPulse (p : Pocket)
  /-- SILENCE_EXPIRY (R55). -/
  | silenceExpiry (p : Pocket)
  /-- SPINUP_FAIL (R58). -/
  | spinupFail (p : Pocket)
  /-- RUN_END (R59). -/
  | runEnd (p : Pocket)
  /-- COAST_END (R67). -/
  | coastEnd (p : Pocket)
  /-- NO_STOP (R67). -/
  | noStop (p : Pocket)
  /-- TEMPERATURE_SAMPLE: the channel and its raw sample (R75). -/
  | temperatureSample (ch : Sensor) (raw : BitVec 10)
  /-- DWELL_END (R89). -/
  | dwellEnd (st : Stage)
  /-- START_ALLOWANCE_END (R98). -/
  | startAllowanceEnd (p : Pocket)
  /-- PACING_TIMER_EXPIRY (R102). -/
  | pacingTimerExpiry
  /-- NOT_BEFORE_EXPIRY: the stage whose queue entry's not-before time ends (R103). -/
  | notBeforeExpiry (st : Stage)
  /-- ZERO_CROSSING: the greatest scaled absolute value of the sense input since the last crossing (R109). -/
  | zeroCrossing (peak : Byte)
  /-- MAINS_LOST (R111). -/
  | mainsLost
  /-- ELECTRODE_SAMPLE: the pocket and its raw sample (R117). -/
  | electrodeSample (p : Pocket) (value : BitVec 10)
  /-- DEBOUNCED_CHANGE: the input and the pin level (true: high) it has held for 20.0 ms (R139, R140). -/
  | debouncedChange (i : Fin 12) (high : Bool)
  /-- CHORD_QUALIFY (R146). -/
  | chordQualify
  /-- SYNC (R160). -/
  | sync
  /-- SYNC_REPLY (R160). -/
  | syncReply
  /-- LINE_ERROR (R159). -/
  | lineError
  /-- GAP_TIMEOUT (R162). -/
  | gapTimeout
  /-- UNKNOWN_COMMAND: the code received (R161). -/
  | unknownCommand (code : Byte)
  /-- STATUS (R163). -/
  | status
  /-- PEEK: where it goes and how it finds the link, and the count byte n (R164). -/
  | peek (target : AccessTarget) (n : Byte)
  /-- POKE: likewise, with the data bytes (R164). -/
  | poke (target : AccessTarget) (n : Byte) (data : List Byte)
  /-- HOLD (R165). -/
  | hold
  /-- RELEASE (R165). -/
  | release
  /-- OPT_READ: offset and count byte n (R167). -/
  | optRead (off : Byte) (n : Byte)
  /-- OPT_WRITE: offset, count byte n and the data bytes (R167). -/
  | optWrite (off : Byte) (n : Byte) (data : List Byte)
  /-- OPT_WRITE_COMPLETE (R167). -/
  | optWriteComplete
  /-- FORCE_ALERT: the set of causes (R154, R168). -/
  | forceAlert (causes : BitVec 16)
  /-- RESET_PART (R168). -/
  | resetPart
  /-- PART_TO_TOOL_SLOT (R159). -/
  | partToToolSlot
  deriving DecidableEq, Repr

end Sys2Proof
end

