-- ==== Sys2Proof/Decode.lean ====
section
/-! DEFINITION. What a word spells by the table's bits. No row of spec/opcode_table.json gives bits, so no word spells a command (log entry 2). -/

namespace Sys2Proof

/-- The command a word of `nbits` bits spells by spec/opcode_table.json: every row's "fields" is empty and none
has "fixed" bits, so none. -/
def decodeTableWord (_nbits _w : Nat) : Option Instr := none

end Sys2Proof
end

