-- ==== Sys2Proof/Config.lean ====
section
/-! DEFINITION. What one appliance fixes and the manual leaves open: the free values (no body: nothing can be proved of them), what an unwritten RAM byte reads as, and the option row and pin levels a machine stands at in `State.reset`. -/

namespace Sys2Proof.Config

/-- FREE VALUE. The `n`-th draw of a choice the manual leaves open: which of two events of one instant is
taken first, how many bytes of a cut transfer had completed, which of several standing conditions is met first.
It has no body, so no statement can rest on it. SAFE (log entry 4). -/
opaque free : Nat → Nat

/-- What a RAM address nothing has written reads as. DESIGN CHOICE, unsafe (log entry 5): the external RAM is
another part and the manual gives no contents for it. -/
def ramUnwritten : Byte := 0

/-- Option row bytes 0x00 to 0x13 of the machine in `State.reset`: the default frame codes (R1), the page bases
of R17, the figures of sections 5.9, 5.10, 2.13 and 2.14. DESIGN CHOICE, unsafe (log entry 6). -/
def rowHead : List Byte :=
  [0x3A, 0x5C, 0x00, 0xFE, 0x01, 0x00, 0xFF, 0x01, 16, 6, 4, 6, 4, 4, 170, 190, 0x54, 0x01, 10, 0]

/-- The falling translation table printed under R76, T[0] to T[16], low byte first (R182). -/
def rowTable : List Byte :=
  [144, 1, 74, 1, 24, 1, 240, 0, 208, 0, 182, 0, 160, 0, 140, 0, 120, 0, 101, 0, 82, 0, 62, 0, 40, 0, 14, 0,
   238, 255, 206, 255, 176, 255]

/-- The twelve input entries: IN3 DOOR_A, IN10 and IN11 CHORD as in sections 7.2 and 7.8, every other fitting on
one input of its own, all active-low; no AIRFLOW. DESIGN CHOICE, unsafe (log entry 6). -/
def rowInputs : List Byte :=
  [0x13, 0x14, 0x12, 0x11, 0x15, 0x16, 0x17, 0x18, 0x1B, 0x1C, 0x1D, 0x1D]

/-- The stored option row of the machine in `State.reset`, with its sum 0x113C in bytes 126 and 127. -/
def factoryRow : List Byte :=
  rowHead ++ rowTable ++ rowInputs ++ List.replicate 60 0 ++ [0x3C, 0x11]

/-- The contact levels of the machine in `State.reset`, bit i the pin of INi: every fitting closed to ground,
the two chord buttons released. DESIGN CHOICE, unsafe (log entry 7). -/
def contactLevels : BitVec 12 := 0xC00

/-- The raw level of every thermistor input of the machine in `State.reset`: 32.0 °C in the table of R76.
DESIGN CHOICE, unsafe (log entry 7). -/
def thermistorLevel : BitVec 10 := 700

end Sys2Proof.Config
end

