-- ==== Sys2Proof/Machine/State.lean ====
section
/-! DEFINITION. The state of the block as plain data: every item the manual's blocks hold, the queue of waiting commands, the pins, and the state right after a POWER_ON reset. -/

namespace Sys2Proof.Machine

/-! ## The pocket sequencer (R18) -/

/-- The ten states of a pocket (R18). -/
inductive CycleState where
  | idle | starting | drying | extending | cooling | creaseGuard | done | paused | faulted | held
  deriving DecidableEq, Repr

/-- The lockout causes (R18). -/
inductive Lockout where
  | overheat | highLimit | sensor | stale | drum
  deriving DecidableEq, Repr

/-- The end flags (R18). -/
inductive EndFlag where
  | confirmedDry | limitReached | timedEnd | advanced | aborted
  deriving DecidableEq, Repr

/-- The pocket cycle context (R18); `none` is the absence of an optional item. -/
structure Cycle where
  state : CycleState
  startTarget : Option CycleState
  resume : Option CycleState
  holdFrom : Option CycleState
  lockout : Option Lockout
  elapsed : Nat
  th : Nat
  extension : Nat
  cool : Nat
  creaseTimer : Nat
  creaseElapsed : Nat
  freshness : Nat
  endFlag : Option EndFlag
  deriving DecidableEq, Repr

/-- The context after every reset (R18). -/
def Cycle.reset : Cycle :=
  { state := .idle, startTarget := none, resume := none, holdFrom := none, lockout := none, elapsed := 0, th := 0,
    extension := 0, cool := 0, creaseTimer := 0, creaseElapsed := 0, freshness := 0, endFlag := none }

/-- The eighteen fields of a pocket demand record in effect (R28, R71, R84, R130), MODE and CREASE by their codes. -/
structure Tuning where
  mode : Nat
  heatSet : Nat
  heatBand : Nat
  stage2Offset : Nat
  heatLevel : Nat
  timeLimit : Nat
  wetLevel : Nat
  filterWeight : Nat
  dryTarget : Nat
  confirm : Nat
  margin : Nat
  coolSet : Nat
  coolTime : Nat
  fwdRun : Nat
  revRun : Nat
  pause : Nat
  speedLow : Nat
  crease : Nat
  deriving DecidableEq, Repr

/-- The reset values of the fields (R28, R71, R84, R130). -/
def Tuning.reset : Tuning :=
  { mode := 0, heatSet := 140, heatBand := 6, stage2Offset := 10, heatLevel := 2, timeLimit := 60, wetLevel := 512,
    filterWeight := 16, dryTarget := 4096, confirm := 3, margin := 32, coolSet := 80, coolTime := 5, fwdRun := 90,
    revRun := 30, pause := 4, speedLow := 40, crease := 1 }

/-! ## The drum drive (R51) -/

inductive DrumState where
  | stopped | spinup | run | coast
  deriving DecidableEq, Repr

inductive Direction where
  | fwd | rev
  deriving DecidableEq, Repr

inductive DrumRequest where
  | stop | run | burst
  deriving DecidableEq, Repr

inductive DrumFault where
  | spinupFail | stall | noStop | belt
  deriving DecidableEq, Repr

/-- The items of a drum drive (R51). `dir` is the DIR output; the period reference is the time of the last
qualified pulse on the block's clock, in µs; the timers are in ms. -/
structure Drum where
  state : DrumState
  dir : Direction
  nextDir : Direction
  confirmed : Bool
  request : DrumRequest
  reference : Option Nat
  period : Nat
  speed : Nat
  silence : Nat
  spinTimer : Nat
  runTimer : Nat
  coastTimer : Nat
  drag : Nat
  tangles : Nat
  lastFault : Option DrumFault
  deriving DecidableEq, Repr

/-- The drum after every reset (R51). -/
def Drum.reset : Drum :=
  { state := .stopped, dir := .fwd, nextDir := .fwd, confirmed := true, request := .stop, reference := none,
    period := 0, speed := 0, silence := 0, spinTimer := 0, runTimer := 0, coastTimer := 0, drag := 0, tangles := 0,
    lastFault := none }

/-! ## Temperature channels and heater stages (R74, R93) -/

inductive Side where
  | low | high
  deriving DecidableEq, Repr

/-- A temperature channel (R74). `fault` is the fault side: present exactly while the channel is FAULTED. -/
structure Channel where
  fault : Option Side
  lastRaw : Nat
  bad : Nat
  good : Nat
  ring : List Int
  translated : Option Int
  filtered : Option Int
  deriving DecidableEq, Repr

/-- The channel after every reset (R74). -/
def Channel.reset : Channel :=
  { fault := none, lastRaw := 0, bad := 0, good := 0, ring := [], translated := none, filtered := none }

inductive StageState where
  | off | dwell | queued | on
  deriving DecidableEq, Repr

/-- A heater stage: its state, its want, its dwell timer in ms (R93). `ended` is the MODEL's own: the stage's dwell has
ended at this very instant, so that a loss of want or permission taken next finds it OFF (R91; log entry 44). -/
structure StageUnit where
  state : StageState
  want : Bool
  dwell : Nat
  ended : Bool
  deriving DecidableEq, Repr

/-- The stage after every reset (R93). -/
def StageUnit.reset : StageUnit := { state := .off, want := false, dwell := 0, ended := false }

/-! ## The dryness unit (R116) -/

structure Dryness where
  gateOpen : Bool
  lastSample : Nat
  gated : Nat
  hits : Nat
  lastHits : Nat
  wetness : Nat
  windows : Nat
  streak : Nat
  deriving DecidableEq, Repr

/-- The dryness unit after every reset (R116, R135). -/
def Dryness.reset : Dryness :=
  { gateOpen := false, lastSample := 0, gated := 0, hits := 0, lastHits := 0, wetness := 65535, windows := 0,
    streak := 0 }

/-- All that exists once per pocket. `permission` is heat permission (R82). -/
structure PocketUnit where
  cycle : Cycle
  tuning : Tuning
  drum : Drum
  exhaust : Channel
  stage1 : StageUnit
  stage2 : StageUnit
  permission : Bool
  dryness : Dryness
  deriving DecidableEq, Repr

/-- A pocket after every reset. -/
def PocketUnit.reset : PocketUnit :=
  { cycle := .reset, tuning := .reset, drum := .reset, exhaust := .reset, stage1 := .reset, stage2 := .reset,
    permission := false, dryness := .reset }

/-! ## The load share unit and the mains monitor (R95) -/

/-- An entry of the request queue: the stage and its not-before time remaining in ms, if it has one (R103). -/
structure QueueEntry where
  stage : Stage
  notBefore : Option Nat
  deriving DecidableEq, Repr

inductive MainsState where
  | normal | sagged | lost
  deriving DecidableEq, Repr

/-- The mains monitor's items (R95). `crossedAt` is the MODEL's own: the time of the last qualified crossing on
the block's clock, in µs, by which the 4 ms of R109 are told. -/
structure Mains where
  state : MainsState
  sagStreak : Nat
  restoreStreak : Nat
  lastAmplitude : Nat
  keptPeak : Nat
  lossTimer : Nat
  halfOpen : Bool
  crossedAt : Nat
  deriving DecidableEq, Repr

/-- The monitor after every reset (R95). -/
def Mains.reset : Mains :=
  { state := .normal, sagStreak := 0, restoreStreak := 0, lastAmplitude := 0, keptPeak := 0, lossTimer := 0,
    halfOpen := false, crossedAt := 0 }

/-- The load share unit's items (R95). A start allowance is `none` when idle, else its ms remaining; `queue` has
its head first, `grants` the oldest grant first; the four outputs are true while energised. -/
structure LoadShare where
  supplyLimit : Nat
  allowanceA : Option Nat
  allowanceB : Option Nat
  queue : List QueueEntry
  grants : List Stage
  pacing : Nat
  outA1 : Bool
  outA2 : Bool
  outB1 : Bool
  outB2 : Bool
  mains : Mains
  deriving DecidableEq, Repr

/-- The unit after every reset (R95), with OPT_SUPPLY_MAX `supplyMax`. -/
def LoadShare.reset (supplyMax : Nat) : LoadShare :=
  { supplyLimit := supplyMax, allowanceA := none, allowanceB := none, queue := [], grants := [], pacing := 250,
    outA1 := false, outA2 := false, outB1 := false, outB2 := false, mains := .reset }

/-! ## The contact input unit (R137) -/

inductive Level where
  | unsettled | active | inactive
  deriving DecidableEq, Repr

/-- One contact input: pin level and previous pin level (true: high), the stability timer in 100 µs units, the
debounced level (R137). Its function, polarity and edge are read from the working copy (R141). -/
structure Input where
  pin : Bool
  previous : Bool
  stability : Nat
  level : Level
  deriving DecidableEq, Repr

/-- An input after every reset (R137). -/
def Input.reset : Input := { pin := false, previous := false, stability := 0, level := .unsettled }

inductive ChordState where
  | inactive | qualifying | spent
  deriving DecidableEq, Repr

/-- The twelve inputs IN0 to IN11, in order, and the stop chord with its timer in ms (R137). -/
structure Contacts where
  inputs : List Input
  chord : ChordState
  chordTimer : Nat
  deriving DecidableEq, Repr

/-- The unit after every reset (R137). -/
def Contacts.reset : Contacts :=
  { inputs := List.replicate 12 .reset, chord := .inactive, chordTimer := 0 }

/-! ## The alert controller (R150, R151) -/

/-- The sixteen causes (R150). STALE is one cause; it carries the pocket its raiser names (R156). -/
inductive Cause where
  | overheat (p : Pocket)
  | highLimit (p : Pocket)
  | drum (p : Pocket)
  | sensor (p : Pocket)
  | stale (p : Pocket)
  | sag
  | tangle (p : Pocket)
  | done (p : Pocket)
  | take
  | service
  deriving DecidableEq, Repr

/-- A fault list entry (R156). `state` is `none` for a common entry; the pocket is the cause's own. -/
structure FaultEntry where
  serial : Byte
  cause : Cause
  state : Option CycleState
  elapsed : Nat
  deriving DecidableEq, Repr

/-- The alert controller's items (R151): sets of causes as bits, bit k for cause k (R183). -/
structure Alerts where
  pending : BitVec 16
  forced : BitVec 16
  enabled : BitVec 16
  presented : BitVec 16
  faults : List FaultEntry
  nextSerial : Byte
  deriving DecidableEq, Repr

/-- The controller after a POWER_ON reset (R151). -/
def Alerts.reset : Alerts :=
  { pending := 0, forced := 0, enabled := 0, presented := 0, faults := [], nextSerial := 0 }

/-! ## The blocks behind the path unit and the service line -/

inductive OptionState where
  | valid | optionFault
  deriving DecidableEq, Repr

/-- The blocks that share one clock and one working copy. `working` and `optionState` are the option row unit's
(R169); `held` is the service line unit's held item (R158), which pockets, drums and budget read. `clock` (µs since
the blocks took their reset values) and `draws` (how many free choices have been taken) are the MODEL's own. -/
structure Blocks where
  working : List Byte
  optionState : OptionState
  held : Bool
  clock : Nat
  draws : Nat
  pocketA : PocketUnit
  pocketB : PocketUnit
  inlet : Channel
  load : LoadShare
  contacts : Contacts
  alerts : Alerts
  deriving DecidableEq, Repr

/-! ## The path unit (sections 1.1 to 1.7) -/

inductive RecordId where
  | pocket (p : Pocket)
  | common
  deriving DecidableEq, Repr

/-- A staging record: its bytes from record offset 0, which of them have been touched since the last take, and
the last-taken SEQ (section 1.3). -/
structure Staging where
  bytes : List Byte
  touched : List Bool
  lastSeq : Byte
  deriving DecidableEq, Repr

inductive ActionResult where
  | none | accepted | notNow | illegal | held
  deriving DecidableEq, Repr

/-- A take result (R10): SEQ echo, action result, and the field sets by the bits of R183. -/
structure TakeResult where
  seq : Byte
  action : ActionResult
  clamped : BitVec 24
  torn : BitVec 24
  refused : BitVec 24
  deriving DecidableEq, Repr

/-- A take result after every reset (R10). -/
def TakeResult.reset : TakeResult := { seq := 0, action := .none, clamped := 0, torn := 0, refused := 0 }

/-- The snapshots of the four report records, each absent until frozen (R12). -/
structure Snapshots where
  pocketA : Option (List Byte)
  pocketB : Option (List Byte)
  common : Option (List Byte)
  faults : Option (List Byte)
  deriving DecidableEq, Repr

/-- No snapshot. -/
def Snapshots.none : Snapshots := { pocketA := .none, pocketB := .none, common := .none, faults := .none }

/-- What is kept for the controller's frame in progress (R5): the last SEQ value written for each record. Its
current address and its snapshots (R2, R12) live within the frame's one command, which ends with this absent. -/
structure FrameState where
  seqA : Option Byte
  seqB : Option Byte
  seqCommon : Option Byte
  deriving DecidableEq, Repr

inductive AccessKind where
  | peek | poke
  deriving DecidableEq, Repr

/-- Whether a service access waits for the link (with the µs waited) or runs on the memory side. -/
inductive AccessPhase where
  | waiting (waited : Nat)
  | inFlight
  deriving DecidableEq, Repr

/-- A service access at the arbiter (section 1.6). `owned` is false once its command was abandoned (R162). -/
structure Access where
  kind : AccessKind
  addr : BitVec 24
  count : Nat
  data : List Byte
  phase : AccessPhase
  owned : Bool
  snaps : Snapshots
  deriving DecidableEq, Repr

/-- The path unit (R16). `interpreting` is false while it is transparent; `passThrough` is true while a frame that
was in progress when interpreting began is still passing. -/
structure PathUnit where
  interpreting : Bool
  passThrough : Bool
  stagingA : Staging
  stagingB : Staging
  stagingCommon : Staging
  resultA : TakeResult
  resultB : TakeResult
  resultCommon : TakeResult
  frame : Option FrameState
  access : Option Access
  deriving DecidableEq, Repr

/-- What passed on the link in the last frame: the bytes (and bits of a byte cut short) that left for the RAM, and
those that went back to the appliance controller. The block's link outputs. -/
structure Link where
  toRam : List Byte
  toRamCut : List Bool
  toController : List Byte
  toControllerCut : List Bool
  deriving DecidableEq, Repr

/-! ## The service line unit (R158) -/

inductive Receiver where
  | awaitSync | syncReply | ready | receiving | executing | answering
  deriving DecidableEq, Repr

inductive CommandResult where
  | ok | refused | collided | linkBusy | timeout
  deriving DecidableEq, Repr

/-- A command of the option row that waits for an abandoned nonvolatile write to end (R162). -/
inductive OptionCommand where
  | read (off n : Byte)
  | write (off n : Byte) (data : List Byte)
  deriving DecidableEq, Repr

/-- The service line unit's items (R158). `command` holds the code and the parameter bytes received so far,
`answer` the bits still to be sent; `permit` is the permit in effect. The rest is what the rules imply: `bits` of
the byte being received, `lineLow` the line's last level, `lowFor` how long the low has lasted (in SYNC_REPLY the
tool's), `lowFromReady` that a low of the present slot, or the present low, is judged as begun in READY (R159), `lowInReply`
that the low began in SYNC_REPLY (R160), `driveFor` the cycles the part still
holds the line low, `replyTimer` the cycles since the SYNC release, `sentBit` the bit of the last part-to-tool
slot of this command, `resetDue` that the last slot of RESET_PART's answer has ended, and commands that wait for an abandoned access or
nonvolatile write to end (R162). -/
structure ServiceUnit where
  receiver : Receiver
  slotTimer : Nat
  gapTimer : Nat
  command : Option (List Byte)
  answer : Option (List Bool)
  permit : Bool
  lastResult : CommandResult
  collided : Nat
  bits : List Bool
  lineLow : Bool
  lowFor : Nat
  lowFromReady : Bool
  lowInReply : Bool
  driveFor : Nat
  replyTimer : Nat
  sentBit : Option Bool
  resetDue : Bool
  heldAccess : Option Access
  heldOption : Option OptionCommand
  deriving DecidableEq, Repr

/-- The unit after every reset (R158). The items that R158 does not list are the model's choice (DESIGN CHOICE, log entry
28); the line's last level is high, so that a low the tool already holds when the start-up sequence ends is a falling edge of
the first clock cycle, and its length counts from there. -/
def ServiceUnit.reset : ServiceUnit :=
  { receiver := .awaitSync, slotTimer := 32, gapTimer := 0, command := none, answer := none, permit := false,
    lastResult := .ok, collided := 0, bits := [], lineLow := false, lowFor := 0, lowFromReady := false,
    lowInReply := false, driveFor := 0, replyTimer := 0, sentBit := none, resetDue := false, heldAccess := none,
    heldOption := none }

/-! ## Option row, phases, pins -/

/-- A nonvolatile write in progress (R167): where it writes, what, and whether its command still stands (R162). -/
structure NvWrite where
  off : Nat
  data : List Byte
  owned : Bool
  deriving DecidableEq, Repr

inductive ResetKind where
  | powerOn | pin | service
  deriving DecidableEq, Repr

/-- Where the part stands in R172 and R173: without supply, held in steps 1 and 2 by the RESET input, in the
start-up wait (with its µs), or running (from step 6). -/
inductive Phase where
  | off
  | pinHeld
  | startUpWait (kind : ResetKind) (waited : Nat)
  | running
  deriving DecidableEq, Repr

/-- The input pins as the outside drives them: contact pins (bit i: INi high), thermistor and electrode inputs,
the mains sense input's scaled absolute value, the tool's drive of the service line, the appliance controller's
select, the RESET input. -/
structure Pins where
  contacts : BitVec 12
  thermistorA : BitVec 10
  thermistorB : BitVec 10
  thermistorInlet : BitVec 10
  electrodeA : BitVec 10
  electrodeB : BitVec 10
  mainsSense : Byte
  toolLow : Bool
  select : Bool
  resetInput : Bool
  deriving DecidableEq, Repr

/-- The whole state: the queue of waiting commands, first in first out, and every block. `ram` is the external
serial RAM as (address, byte) pairs, addresses rising, none with the byte an unlisted address reads as. -/
structure State where
  pending : List Instr
  phase : Phase
  resetKind : ResetKind
  blocks : Blocks
  path : PathUnit
  service : ServiceUnit
  storedRow : List Byte
  nvWrite : Option NvWrite
  ram : List Host.Cell
  link : Link
  pins : Pins
  deriving DecidableEq, Repr

/-- Why the machine stops with a fault: no command of this block does, so there is no reason (safe: nothing is cut
off). -/
inductive Fault where
  deriving DecidableEq, Repr

/-- Why a command has no meaning. -/
inductive Refusal where
  /-- Raised by an arm of exec whose command has no meaning yet, with the table's mnemonic (safe: the machine
  stops). No arm raises it. -/
  | notModelled (mnemonic : String)
  deriving DecidableEq, Repr

/-! ## The machine right after a reset -/

/-- The bytes of a pocket record's fields at their reset values, from record offset 0x00 (R16, R175). The bytes of SEQ,
ACTION and KEEPALIVE, for which no chapter gives a reset value, are 0 (DESIGN CHOICE, log entry 52). -/
def Staging.resetPocket : Staging :=
  { bytes := [0, 0, 0, 0, 140, 6, 10, 2, 60, 0, 0, 2, 16, 0, 16, 3, 32, 80, 5, 90, 30, 4, 40, 1],
    touched := List.replicate 24 false, lastSeq := 0 }

/-- The common record's fields at their reset values, from page offset 0x80 (R16), SUPPLY_LIMIT being `supplyMax` and the
byte of SEQ 0 (DESIGN CHOICE, log entry 52). -/
def Staging.resetCommon (supplyMax : Nat) : Staging :=
  { bytes := [0, 0, 0, 0, 0, BitVec.ofNat 8 supplyMax, 0, 0], touched := List.replicate 8 false, lastSeq := 0 }

/-- The path unit after every reset (R16), before it begins interpreting. -/
def PathUnit.reset (supplyMax : Nat) : PathUnit :=
  { interpreting := false, passThrough := false, stagingA := .resetPocket, stagingB := .resetPocket,
    stagingCommon := .resetCommon supplyMax, resultA := .reset, resultB := .reset, resultCommon := .reset,
    frame := none, access := none }

/-- The pins of the machine in `State.reset` (log entry 7). -/
def Pins.reset : Pins :=
  { contacts := Config.contactLevels, thermistorA := Config.thermistorLevel, thermistorB := Config.thermistorLevel,
    thermistorInlet := Config.thermistorLevel, electrodeA := 0, electrodeB := 0, mainsSense := 0, toolLow := false,
    select := false, resetInput := false }

/-- The machine right after a POWER_ON reset: its start-up sequence has loaded `Config.factoryRow`, found it VALID,
given every block its reset values and begun interpreting frames (R172). -/
def State.reset : State :=
  { pending := []
    phase := .running
    resetKind := .powerOn
    blocks :=
      { working := Config.factoryRow, optionState := .valid, held := false, clock := 0, draws := 0,
        pocketA := .reset, pocketB := .reset, inlet := .reset, load := .reset 16, contacts := .reset,
        alerts := .reset }
    path := { PathUnit.reset 16 with interpreting := true }
    service := .reset
    storedRow := Config.factoryRow
    nvWrite := none
    ram := []
    link := { toRam := [], toRamCut := [], toController := [], toControllerCut := [] }
    pins := .reset }

end Sys2Proof.Machine
end

