-- ==== Sys2Proof/Machine/Ops.lean ====
section
/-! DEFINITION. The named operations over the state: pockets, stages and channels by name, the external RAM, free choices, the alert sets and the fault list. -/

namespace Sys2Proof.Machine

/-- What a command answers. -/
abbrev Answer := Host.Outcome State Fault Refusal

/-! ## Pockets, stages, channels -/

/-- The other pocket. -/
def otherPocket : Pocket → Pocket
  | .a => .b
  | .b => .a

/-- The pocket a heater stage belongs to (section 5.2). -/
def stagePocket : Stage → Pocket
  | .a1 | .a2 => .a
  | .b1 | .b2 => .b

/-- The two stages of a pocket: stage 1, then stage 2. -/
def stagesOf : Pocket → Stage × Stage
  | .a => (.a1, .a2)
  | .b => (.b1, .b2)

/-- All that exists once per pocket, of this pocket. -/
def Blocks.pocket (b : Blocks) : Pocket → PocketUnit
  | .a => b.pocketA
  | .b => b.pocketB

/-- The blocks with this pocket's unit changed. -/
def Blocks.modPocket (b : Blocks) (p : Pocket) (f : PocketUnit → PocketUnit) : Blocks :=
  match p with
  | .a => { b with pocketA := f b.pocketA }
  | .b => { b with pocketB := f b.pocketB }

def Blocks.modCycle (b : Blocks) (p : Pocket) (f : Cycle → Cycle) : Blocks :=
  b.modPocket p fun u => { u with cycle := f u.cycle }

def Blocks.modDrum (b : Blocks) (p : Pocket) (f : Drum → Drum) : Blocks :=
  b.modPocket p fun u => { u with drum := f u.drum }

def Blocks.modDryness (b : Blocks) (p : Pocket) (f : Dryness → Dryness) : Blocks :=
  b.modPocket p fun u => { u with dryness := f u.dryness }

/-- The unit of a heater stage. -/
def Blocks.stage (b : Blocks) : Stage → StageUnit
  | .a1 => b.pocketA.stage1
  | .a2 => b.pocketA.stage2
  | .b1 => b.pocketB.stage1
  | .b2 => b.pocketB.stage2

def Blocks.modStage (b : Blocks) (st : Stage) (f : StageUnit → StageUnit) : Blocks :=
  match st with
  | .a1 => b.modPocket .a fun u => { u with stage1 := f u.stage1 }
  | .a2 => b.modPocket .a fun u => { u with stage2 := f u.stage2 }
  | .b1 => b.modPocket .b fun u => { u with stage1 := f u.stage1 }
  | .b2 => b.modPocket .b fun u => { u with stage2 := f u.stage2 }

/-- The temperature channel of a sensor (R74). -/
def Blocks.channel (b : Blocks) : Sensor → Channel
  | .exhaust p => (b.pocket p).exhaust
  | .inlet => b.inlet

def Blocks.modChannel (b : Blocks) (ch : Sensor) (f : Channel → Channel) : Blocks :=
  match ch with
  | .exhaust p => b.modPocket p fun u => { u with exhaust := f u.exhaust }
  | .inlet => { b with inlet := f b.inlet }

def Blocks.modLoad (b : Blocks) (f : LoadShare → LoadShare) : Blocks := { b with load := f b.load }

def Blocks.modMains (b : Blocks) (f : Mains → Mains) : Blocks :=
  b.modLoad fun l => { l with mains := f l.mains }

/-- A pocket's start allowance: none when idle, else its ms remaining (R98). -/
def LoadShare.allowance (l : LoadShare) : Pocket → Option Nat
  | .a => l.allowanceA
  | .b => l.allowanceB

def LoadShare.setAllowance (l : LoadShare) (p : Pocket) (v : Option Nat) : LoadShare :=
  match p with
  | .a => { l with allowanceA := v }
  | .b => { l with allowanceB := v }

/-- Whether a stage's output is energised (R95). -/
def LoadShare.output (l : LoadShare) : Stage → Bool
  | .a1 => l.outA1
  | .a2 => l.outA2
  | .b1 => l.outB1
  | .b2 => l.outB2

/-- Every output set to follow the list: energised exactly if the stage is in it (R107). -/
def LoadShare.switchOutputs (l : LoadShare) (on : List Stage) : LoadShare :=
  { l with outA1 := on.contains .a1, outA2 := on.contains .a2, outB1 := on.contains .b1, outB2 := on.contains .b2 }

/-- The blocks of the state changed. -/
def State.modBlocks (s : State) (f : Blocks → Blocks) : State := { s with blocks := f s.blocks }

def State.modPath (s : State) (f : PathUnit → PathUnit) : State := { s with path := f s.path }

def State.modService (s : State) (f : ServiceUnit → ServiceUnit) : State := { s with service := f s.service }

/-- What a command does while the part runs; in every other phase it does nothing: the blocks take and sample
their inputs from step 5 of the start-up sequence (R172), and without supply nothing acts (R173). -/
def State.whileRunning (s : State) (f : State → State) : State :=
  if s.phase = .running then f s else s

/-- What an event does to the blocks while the part runs. -/
def State.onBlocks (s : State) (f : Blocks → Blocks) : State := s.whileRunning fun s => s.modBlocks f

/-- An event that takes place only when its condition stands; otherwise it does not happen (log entry 8). -/
def Blocks.when (b : Blocks) (due : Bool) (f : Blocks → Blocks) : Blocks := if due then f b else b

/-! ## Free choices (log entry 4) -/

/-- A list in an order the manual leaves open: as many as `fuel` elements are drawn one after another. A list of at
most one element needs no draw. Answers the list and the number of draws taken in all. -/
def shuffle {α : Type} : Nat → Nat → List α → List α × Nat
  | 0, draws, l => (l, draws)
  | fuel + 1, draws, l =>
    if l.length ≤ 1 then (l, draws)
    else
      let i := Config.free draws % l.length
      match l[i]? with
      | none => (l, draws)
      | some x => (x :: (shuffle fuel (draws + 1) (l.eraseIdx i)).1, (shuffle fuel (draws + 1) (l.eraseIdx i)).2)

/-! ## The external RAM (R4, R11) -/

/-- The byte the RAM holds at an address; an unlisted one reads as `Config.ramUnwritten`. -/
def readRam : List Host.Cell → Nat → Byte
  | [], _ => Config.ramUnwritten
  | (k, v) :: rest, a => if k = a then v else readRam rest a

/-- The RAM after a byte is written, in canonical form. -/
def writeRam (a : Nat) (v : Byte) : List Host.Cell → List Host.Cell
  | [] => if v = Config.ramUnwritten then [] else [(a, v)]
  | (k, w) :: rest =>
    if a < k then (if v = Config.ramUnwritten then (k, w) :: rest else (a, v) :: (k, w) :: rest)
    else if a = k then (if v = Config.ramUnwritten then rest else (a, v) :: rest)
    else (k, w) :: writeRam a v rest

/-- Addresses strictly rising from `lo`, below 0x20000, and no entry equal to what an unlisted address reads as. -/
def Memory.wfFrom : Nat → List Host.Cell → Bool
  | _, [] => true
  | lo, (k, v) :: rest => decide (lo ≤ k) && decide (k < 0x20000) && decide (v ≠ Config.ramUnwritten) && Memory.wfFrom (k + 1) rest

/-- The RAM is in canonical form. -/
def Memory.wf (ram : List Host.Cell) : Bool := Memory.wfFrom 0 ram

/-- The RAM after a run of bytes is written from a 17-bit address, which wraps from 0x1FFFF to 0 (R2). -/
def writeRamBytes (addr : BitVec 17) : List Byte → List Host.Cell → List Host.Cell
  | [], ram => ram
  | v :: rest, ram => writeRamBytes (addr + 1) rest (writeRam addr.toNat v ram)

/-! ## Causes, sets and the fault list (R150 to R157) -/

/-- The number of a cause, which is its priority (R150). -/
def Cause.number : Cause → Nat
  | .overheat .a => 0
  | .overheat .b => 1
  | .highLimit .a => 2
  | .highLimit .b => 3
  | .drum .a => 4
  | .drum .b => 5
  | .sensor .a => 6
  | .sensor .b => 7
  | .stale _ => 8
  | .sag => 9
  | .tangle .a => 10
  | .tangle .b => 11
  | .done .a => 12
  | .done .b => 13
  | .take => 14
  | .service => 15

/-- The pocket of a cause, if it has one (R156). -/
def Cause.pocketOf : Cause → Option Pocket
  | .overheat p | .highLimit p | .drum p | .sensor p | .stale p | .tangle p | .done p => some p
  | .sag | .take | .service => none

/-- The fault causes are 0 to 11 (R150). -/
def Cause.isFault (c : Cause) : Bool := decide (c.number < 12)

/-- The set of one cause (R183). -/
def Cause.bit (c : Cause) : BitVec 16 := 1#16 <<< c.number

/-- The cause is in the set. -/
def inSet (set : BitVec 16) (c : Cause) : Bool := set.getLsbD c.number

/-- The level causes, in rising cause number (R150). -/
def levelCauses : List Cause := [.highLimit .a, .highLimit .b, .sag]

/-- The entry a cause makes now (R156): the pocket's state and elapsed drying seconds as they stand. -/
def Blocks.entryFor (b : Blocks) (c : Cause) : FaultEntry :=
  { serial := b.alerts.nextSerial
    cause := c
    state := c.pocketOf.map fun p => (b.pocket p).cycle.state
    elapsed := (c.pocketOf.map fun p => (b.pocket p).cycle.elapsed).getD 0 }

/-- The list with an entry at its end, the oldest removed if it held sixteen (R156). -/
def appendEntry (faults : List FaultEntry) (e : FaultEntry) : List FaultEntry :=
  faults.drop (faults.length - 15) ++ [e]

/-- The cause becomes pending, with its fault list entry if it goes from not pending (R152, R156). -/
def Blocks.makePending (b : Blocks) (c : Cause) : Blocks :=
  if inSet b.alerts.pending c then b
  else if c.isFault then
    { b with alerts :=
      { b.alerts with
        pending := b.alerts.pending ||| c.bit
        faults := appendEntry b.alerts.faults (b.entryFor c)
        nextSerial := b.alerts.nextSerial + 1 } }
  else { b with alerts := { b.alerts with pending := b.alerts.pending ||| c.bit } }

/-- An owner raises an edge cause (R152). -/
def Blocks.raiseCause (b : Blocks) (c : Cause) : Blocks := b.makePending c

/-- An owner presents a level condition (R152). -/
def Blocks.present (b : Blocks) (c : Cause) : Blocks :=
  Blocks.makePending { b with alerts := { b.alerts with presented := b.alerts.presented ||| c.bit } } c

/-- An owner withdraws a level condition; the cause stays pending (R152). -/
def Blocks.withdrawCause (b : Blocks) (c : Cause) : Blocks :=
  { b with alerts := { b.alerts with presented := b.alerts.presented &&& ~~~c.bit } }

/-- The level causes of the list that the acknowledgement removed and whose condition is presented pend again, in
order (R153, step 3). -/
def Blocks.pendAgain (acked : BitVec 16) : List Cause → Blocks → Blocks
  | [], b => b
  | c :: rest, b =>
    Blocks.pendAgain acked rest (if inSet acked c && inSet b.alerts.presented c then b.makePending c else b)

/-- An acknowledgement (R153, step 3): each named cause leaves the pending and the forced set; those in neither are
passed over. -/
def Blocks.acknowledge (b : Blocks) (causes : BitVec 16) : Blocks :=
  let removed := causes &&& (b.alerts.pending ||| b.alerts.forced)
  Blocks.pendAgain removed levelCauses
    { b with alerts :=
      { b.alerts with pending := b.alerts.pending &&& ~~~causes, forced := b.alerts.forced &&& ~~~causes } }

end Sys2Proof.Machine
end

