-- ==== Sys2Proof/Machine/Operands.lean ====
section
/-! DEFINITION. Where every field stands: the option row's settings and its check (R169, R170, R182), the input map (R141), the fields of the demand records with their sizes, ranges and numbers (R175), and the bytes of a frame (R174). -/

namespace Sys2Proof.Machine

/-! ## Multi-byte quantities -/

/-- The value of bytes, least significant first (section 5.5). -/
def fromLe : List Byte → Nat
  | [] => 0
  | v :: rest => v.toNat + 256 * fromLe rest

/-- A value in `size` bytes, least significant first. -/
def toLe : Nat → Nat → List Byte
  | 0, _ => []
  | size + 1, v => BitVec.ofNat 8 v :: toLe size (v / 256)

/-- A 16-bit value read as two's complement. -/
def signed16 (v : Nat) : Int := if v < 0x8000 then (v : Int) else (v : Int) - 0x10000

/-- A byte's bits, most significant first (R159). -/
def bitsOf (v : Byte) : List Bool := [7, 6, 5, 4, 3, 2, 1, 0].map fun i => v.getLsbD i

/-- The byte whose bits come most significant first. -/
def byteOfBits (bits : List Bool) : Byte := bits.foldl (fun v bit => v * 2 + (if bit then 1 else 0)) 0

/-- The three address bytes of a frame or a command, most significant first (R174, R185). -/
def addressBytes (addr : BitVec 24) : List Byte :=
  [(addr >>> 16).setWidth 8, (addr >>> 8).setWidth 8, addr.setWidth 8]

/-- The start address: the low 17 of the 24 bits (R2). -/
def startAddress (addr : BitVec 24) : BitVec 17 := addr.setWidth 17

/-! ## The option row (R182) -/

def rowByte (row : List Byte) (i : Nat) : Nat := (row.getD i 0).toNat

def rowWord (row : List Byte) (i : Nat) : Nat := rowByte row i + 256 * rowByte row (i + 1)

/-- A three-byte page base as stored: 24 bits. -/
def rowBase (row : List Byte) (i : Nat) : Nat := rowWord row i + 0x10000 * rowByte row (i + 2)

/-- T[i], signed half-degrees (R76). -/
def rowPoint (row : List Byte) (i : Nat) : Int := signed16 (rowWord row (0x14 + 2 * i))

/-- The functions of contact inputs (R136). -/
inductive InputFunction where
  | unused
  | door (p : Pocket)
  | lint (p : Pocket)
  | hilimit (p : Pocket)
  | belt (p : Pocket)
  | airflow (p : Pocket)
  | tach (p : Pocket)
  | chord
  deriving DecidableEq, Repr

/-- The function a code names; a code that names none is taken as NONE (R141, R182). -/
def functionOfCode : Nat → InputFunction
  | 1 => .door .a
  | 2 => .door .b
  | 3 => .lint .a
  | 4 => .lint .b
  | 5 => .hilimit .a
  | 6 => .hilimit .b
  | 7 => .belt .a
  | 8 => .belt .b
  | 9 => .airflow .a
  | 10 => .airflow .b
  | 11 => .tach .a
  | 12 => .tach .b
  | 13 => .chord
  | _ => .unused

/-- The function the row maps input i to. -/
def rowFunction (row : List Byte) (i : Nat) : InputFunction := functionOfCode (rowByte row (0x36 + i) % 16)

/-- Input i's polarity is active-low. -/
def rowActiveLow (row : List Byte) (i : Nat) : Bool := (row.getD (0x36 + i) 0).getLsbD 4

/-- Input i's edge is "to inactive". -/
def rowEdgeInactive (row : List Byte) (i : Nat) : Bool := (row.getD (0x36 + i) 0).getLsbD 5

/-- The first input, from `i` on and among the next `n`, that the row maps to the function. -/
def findCarrier (row : List Byte) (f : InputFunction) : Nat → Nat → Option Nat
  | 0, _ => none
  | n + 1, i => if rowFunction row i = f then some i else findCarrier row f n (i + 1)

/-- The input that carries a function: the lowest-numbered one mapped to it (R141). -/
def carrier (row : List Byte) (f : InputFunction) : Option Nat := findCarrier row f 12 0

/-- The function input i acts as: a function other than CHORD and NONE is carried by its lowest-numbered input and
the others act as NONE (R141). -/
def actingFunction (row : List Byte) (i : Nat) : InputFunction :=
  match rowFunction row i with
  | .unused => .unused
  | .chord => .chord
  | f => if carrier row f = some i then f else .unused

/-- No function other than CHORD and NONE is carried by two or more inputs (R170). -/
def inputMapOk (row : List Byte) : Bool :=
  (List.range 12).all fun i =>
    match rowFunction row i with
    | .unused | .chord => true
    | f => carrier row f == some i

/-- The table never rises, or never falls (R170). -/
def tableOk (row : List Byte) : Bool :=
  ((List.range 16).all fun i => decide (rowPoint row i ≤ rowPoint row (i + 1))) ||
    (List.range 16).all fun i => decide (rowPoint row (i + 1) ≤ rowPoint row i)

/-- The sum of bytes 0 to 125 (R170). -/
def rowSum (row : List Byte) : Nat := ((row.take 126).map BitVec.toNat).sum

/-- The check of R170. -/
def checkRow (row : List Byte) : OptionState :=
  if rowSum row % 65536 = rowWord row 0x7E ∧ rowByte row 0x02 = 0 ∧ rowByte row 0x05 = 0 ∧
      rowBase row 0x02 % 0x20000 ≠ rowBase row 0x05 % 0x20000 ∧ rowByte row 0x00 ≠ rowByte row 0x01 ∧
      rowByte row 0x0E < rowByte row 0x0F ∧ 2 ≤ rowByte row 0x12 ∧ rowByte row 0x12 ≤ 60 ∧
      tableOk row = true ∧ inputMapOk row = true then .valid
  else .optionFault

/-! ## The settings in use (R169, R171) -/

/-- The FETCH code: the working copy's, or 0x3A in OPTION_FAULT (R17). -/
def Blocks.fetchCode (b : Blocks) : Byte := if b.optionState = .valid then b.working.getD 0 0 else 0x3A

/-- The STORE code: the working copy's, or 0x5C in OPTION_FAULT (R17). -/
def Blocks.storeCode (b : Blocks) : Byte := if b.optionState = .valid then b.working.getD 1 0 else 0x5C

/-- The demand page base: the low 17 bits of the working copy's, or 0x1FE00 in OPTION_FAULT (R17, R169). -/
def Blocks.demandBase (b : Blocks) : BitVec 17 :=
  if b.optionState = .valid then BitVec.ofNat 17 (rowBase b.working 0x02) else 0x1FE00

/-- The report page base: the low 17 bits of the working copy's, or 0x1FF00 in OPTION_FAULT (R17, R169). -/
def Blocks.reportBase (b : Blocks) : BitVec 17 :=
  if b.optionState = .valid then BitVec.ofNat 17 (rowBase b.working 0x05) else 0x1FF00

/-- OPT_SUPPLY_MAX of a row, used as 31 lu above 31 (R169). -/
def rowSupplyMax (row : List Byte) : Nat := min 31 (rowByte row 0x08)

/-- A stage's cost, kept within 1..15 lu (R169). -/
def Blocks.cost (b : Blocks) : Stage → Nat
  | .a1 => clampNat 1 15 (rowByte b.working 0x09)
  | .a2 => clampNat 1 15 (rowByte b.working 0x0A)
  | .b1 => clampNat 1 15 (rowByte b.working 0x0B)
  | .b2 => clampNat 1 15 (rowByte b.working 0x0C)

/-- OPT_START_COST, used as 15 lu above 15 (R169). -/
def Blocks.startCost (b : Blocks) : Nat := min 15 (rowByte b.working 0x0D)

def Blocks.sagLevel (b : Blocks) : Nat := rowByte b.working 0x0E

def Blocks.restoreLevel (b : Blocks) : Nat := rowByte b.working 0x0F

/-- OPT_HEAT_LIMIT, signed half-degrees. -/
def Blocks.heatLimit (b : Blocks) : Int := signed16 (rowWord b.working 0x10)

/-- OPT_FRESH, in seconds. In OPTION_FAULT the row may hold a value outside 2..60, and a release from hold loads it as it
stands (R45, R47, R171; DESIGN CHOICE, log entry 48). -/
def Blocks.freshSeconds (b : Blocks) : Nat := rowByte b.working 0x12

/-- Whether the part runs in VALID. -/
def Blocks.valid (b : Blocks) : Bool := decide (b.optionState = .valid)

/-! ## The pages (R3, R175, R176) -/

/-- The offset of an address in the page at `base`, if it lies there (R3). -/
def pageOffset (base addr : BitVec 17) : Option Nat :=
  if (addr - base).toNat < 256 then some (addr - base).toNat else none

/-- What a byte of the demand page is to the part. -/
inductive DemandByte where
  /-- A record's commit byte. -/
  | seq (r : RecordId)
  /-- A pocket record's KEEPALIVE byte. -/
  | keepalive (p : Pocket)
  /-- A byte of a field of a record, at this offset of the record. -/
  | field (r : RecordId) (off : Nat)
  /-- Ordinary memory, or a byte of a record that lies in no field (R176). -/
  | ordinary
  deriving DecidableEq, Repr

/-- A pocket record's byte at a record offset (R175). -/
def pocketRecordByte (p : Pocket) (off : Nat) : DemandByte :=
  if off = 0x00 then .seq (.pocket p)
  else if off = 0x02 then .keepalive p
  else if off < 0x18 then .field (.pocket p) off
  else .ordinary

/-- The demand page's byte at a page offset (R3, R175). -/
def demandByte (off : Nat) : DemandByte :=
  if off < 0x40 then pocketRecordByte .a off
  else if off < 0x80 then pocketRecordByte .b (off - 0x40)
  else if off = 0x80 then .seq .common
  else if off < 0x88 then .field .common (off - 0x80)
  else .ordinary

/-- The page offset at which a record begins (R3). -/
def recordOffset : RecordId → Nat
  | .pocket .a => 0x00
  | .pocket .b => 0x40
  | .common => 0x80

/-! ## The fields of the pocket demand record (R175) -/

inductive PocketField where
  | mode | heatSet | heatBand | stage2Offset | heatLevel | timeLimit | wetLevel | filterWeight | dryTarget
  | confirm | margin | coolSet | coolTime | fwdRun | revRun | pause | speedLow | crease
  deriving DecidableEq, Repr

/-- The fields in number order (R175). -/
def pocketFields : List PocketField :=
  [.mode, .heatSet, .heatBand, .stage2Offset, .heatLevel, .timeLimit, .wetLevel, .filterWeight, .dryTarget,
   .confirm, .margin, .coolSet, .coolTime, .fwdRun, .revRun, .pause, .speedLow, .crease]

/-- A field's number in the field sets (R175). -/
def PocketField.number : PocketField → Nat
  | .mode => 1 | .heatSet => 2 | .heatBand => 3 | .stage2Offset => 4 | .heatLevel => 5 | .timeLimit => 6
  | .wetLevel => 7 | .filterWeight => 8 | .dryTarget => 9 | .confirm => 10 | .margin => 11 | .coolSet => 12
  | .coolTime => 13 | .fwdRun => 14 | .revRun => 15 | .pause => 16 | .speedLow => 17 | .crease => 18

/-- A field's first byte in the record (R175). -/
def PocketField.offset : PocketField → Nat
  | .mode => 0x03 | .heatSet => 0x04 | .heatBand => 0x05 | .stage2Offset => 0x06 | .heatLevel => 0x07
  | .timeLimit => 0x08 | .wetLevel => 0x0A | .filterWeight => 0x0C | .dryTarget => 0x0D | .confirm => 0x0F
  | .margin => 0x10 | .coolSet => 0x11 | .coolTime => 0x12 | .fwdRun => 0x13 | .revRun => 0x14 | .pause => 0x15
  | .speedLow => 0x16 | .crease => 0x17

/-- A field's size in bytes (R175). -/
def PocketField.size : PocketField → Nat
  | .timeLimit | .wetLevel | .dryTarget => 2
  | _ => 1

/-- A field's range (R28, R71, R84, R130); for MODE and CREASE, its legal codes. -/
def PocketField.range : PocketField → Nat × Nat
  | .mode => (0, 1)
  | .heatSet => (80, 170)
  | .heatBand => (2, 20)
  | .stage2Offset => (0, 40)
  | .heatLevel => (0, 2)
  | .timeLimit => (1, 120)
  | .wetLevel => (16, 1008)
  | .filterWeight => (1, 64)
  | .dryTarget => (256, 32768)
  | .confirm => (1, 15)
  | .margin => (0, 255)
  | .coolSet => (60, 120)
  | .coolTime => (1, 15)
  | .fwdRun => (10, 240)
  | .revRun => (0, 240)
  | .pause => (2, 15)
  | .speedLow => (20, 60)
  | .crease => (0, 1)

/-- The fields that are refused, not clamped, outside their codes (R29). -/
def PocketField.isCode : PocketField → Bool
  | .mode | .crease => true
  | _ => false

/-- The value in effect of a field. -/
def Tuning.get (t : Tuning) : PocketField → Nat
  | .mode => t.mode | .heatSet => t.heatSet | .heatBand => t.heatBand | .stage2Offset => t.stage2Offset
  | .heatLevel => t.heatLevel | .timeLimit => t.timeLimit | .wetLevel => t.wetLevel
  | .filterWeight => t.filterWeight | .dryTarget => t.dryTarget | .confirm => t.confirm | .margin => t.margin
  | .coolSet => t.coolSet | .coolTime => t.coolTime | .fwdRun => t.fwdRun | .revRun => t.revRun
  | .pause => t.pause | .speedLow => t.speedLow | .crease => t.crease

/-- The fields with one brought into effect. -/
def Tuning.set (t : Tuning) (f : PocketField) (v : Nat) : Tuning :=
  match f with
  | .mode => { t with mode := v }
  | .heatSet => { t with heatSet := v }
  | .heatBand => { t with heatBand := v }
  | .stage2Offset => { t with stage2Offset := v }
  | .heatLevel => { t with heatLevel := v }
  | .timeLimit => { t with timeLimit := v }
  | .wetLevel => { t with wetLevel := v }
  | .filterWeight => { t with filterWeight := v }
  | .dryTarget => { t with dryTarget := v }
  | .confirm => { t with confirm := v }
  | .margin => { t with margin := v }
  | .coolSet => { t with coolSet := v }
  | .coolTime => { t with coolTime := v }
  | .fwdRun => { t with fwdRun := v }
  | .revRun => { t with revRun := v }
  | .pause => { t with pause := v }
  | .speedLow => { t with speedLow := v }
  | .crease => { t with crease := v }

/-! ## The judgement of a field at a take (R7) -/

/-- How a field's bytes stand in the touched map (R7). -/
inductive Touch where
  | untouched | whole | torn
  deriving DecidableEq, Repr

/-- The judgement of the `size` bytes from `off`. -/
def touchOf (touched : List Bool) (off size : Nat) : Touch :=
  let bytes := (touched.drop off).take size
  if bytes.all (fun t => !t) then .untouched else if bytes.all id then .whole else .torn

/-- The staged value of the `size` bytes from `off`. -/
def stagedValue (bytes : List Byte) (off size : Nat) : Nat := fromLe ((bytes.drop off).take size)

/-- The record's bytes with the `size` bytes from `off` set to a value. -/
def setBytes (bytes : List Byte) (off size v : Nat) : List Byte :=
  bytes.take off ++ toLe size v ++ bytes.drop (off + size)

/-- The bit of a field number in a field set (R183). -/
def fieldBit (number : Nat) : BitVec 24 := 1#24 <<< (number - 1)

/-- The outcome of the judgement of a record's fields: the values in effect, the three sets, and the fields that
were brought into effect. -/
structure Judged where
  tuning : Tuning
  clamped : BitVec 24
  torn : BitVec 24
  refused : BitVec 24
  taken : List PocketField
  deriving DecidableEq, Repr

/-- MODE is taken only in IDLE, DONE and FAULTED; in HELD the hold-from state is judged (R29). -/
def modeTakable (c : Cycle) : Bool :=
  match (if c.state = .held then c.holdFrom.getD .held else c.state) with
  | .idle | .done | .faulted => true
  | _ => false

/-- One field judged (R7, R29, R72, R85, R131), against the pocket's context at the take. -/
def judgeField (c : Cycle) (st : Staging) (j : Judged) (f : PocketField) : Judged :=
  match touchOf st.touched f.offset f.size with
  | .untouched => j
  | .torn => { j with torn := j.torn ||| fieldBit f.number }
  | .whole =>
    let v := stagedValue st.bytes f.offset f.size
    let lo := f.range.1
    let hi := f.range.2
    if f.isCode then
      if v ≤ hi ∧ (f ≠ .mode ∨ modeTakable c = true) then
        { j with tuning := j.tuning.set f v, taken := f :: j.taken }
      else { j with refused := j.refused ||| fieldBit f.number }
    else if v < lo ∨ hi < v then
      { j with tuning := j.tuning.set f (clampNat lo hi v), clamped := j.clamped ||| fieldBit f.number,
               taken := f :: j.taken }
    else { j with tuning := j.tuning.set f v, taken := f :: j.taken }

/-- All eighteen fields judged. -/
def judgeFields (u : PocketUnit) (st : Staging) : Judged :=
  pocketFields.foldl (judgeField u.cycle st)
    { tuning := u.tuning, clamped := 0, torn := 0, refused := 0, taken := [] }

/-- The staged bytes of every field set to the value in effect; the other bytes stand (R7, R8). -/
def restoreStaging (t : Tuning) (bytes : List Byte) : List Byte :=
  pocketFields.foldl (fun bs f => setBytes bs f.offset f.size (t.get f)) bytes

end Sys2Proof.Machine
end

