-- ==== Sys2Proof/Machine/Flags.lean ====
section
/-! DEFINITION. The conditions and lines that are worked out from the state and not held: how a contact function stands, lockout conditions, MOTOR_RUN and DIR, heat permission, the gate, the budget, ALERT and the top cause. -/

namespace Sys2Proof.Machine

/-! ## Contact functions as they stand (R136, R140, R142) -/

def Blocks.input (b : Blocks) (i : Nat) : Input := b.contacts.inputs.getD i .reset

/-- The debounced level of the input that carries a function, if one does (R141). -/
def Blocks.functionLevel (b : Blocks) (f : InputFunction) : Option Level :=
  (carrier b.working f).map fun i => (b.input i).level

/-- The door reads closed; UNSETTLED and unmapped read open. -/
def Blocks.doorClosed (b : Blocks) (p : Pocket) : Bool := b.functionLevel (.door p) == some .active

/-- The lint filter reads present; UNSETTLED and unmapped read absent. -/
def Blocks.lintPresent (b : Blocks) (p : Pocket) : Bool := b.functionLevel (.lint p) == some .active

/-- The cutout condition (R81): it holds unless the input has settled closed. -/
def Blocks.cutoutOpen (b : Blocks) (p : Pocket) : Bool := b.functionLevel (.hilimit p) != some .active

/-- The belt shows broken; UNSETTLED and unmapped read intact. -/
def Blocks.beltBroken (b : Blocks) (p : Pocket) : Bool := b.functionLevel (.belt p) == some .inactive

/-- The airflow term (R82): proven, or not mapped; UNSETTLED reads not proven. -/
def Blocks.airflowHolds (b : Blocks) (p : Pocket) : Bool :=
  match b.functionLevel (.airflow p) with
  | none => true
  | some l => l == .active

/-- The logical level of a pin by the input's polarity: true is active (R138). -/
def logicalLevel (row : List Byte) (i : Nat) (high : Bool) : Bool := high != rowActiveLow row i

/-- Every input that carries CHORD has the debounced level ACTIVE, and at least one carries it (R145). -/
def Blocks.chordActive (b : Blocks) : Bool :=
  (List.range 12).any (fun i => rowFunction b.working i == .chord) &&
    (List.range 12).all fun i => rowFunction b.working i != .chord || (b.input i).level == .active

/-! ## Lockout conditions (R21, R78, R80, R81) -/

/-- The overheat condition: the filtered temperature is present and at or above OPT_HEAT_LIMIT (R80). -/
def Blocks.overheat (b : Blocks) (p : Pocket) : Bool :=
  match (b.pocket p).exhaust.filtered with
  | some t => decide (b.heatLimit ≤ t)
  | none => false

/-- The pocket's exhaust channel is FAULTED (R78). -/
def Blocks.exhaustFaulted (b : Blocks) (p : Pocket) : Bool := (b.pocket p).exhaust.fault.isSome

/-- The lockout causes whose conditions hold now. -/
def Blocks.lockoutConditions (b : Blocks) (p : Pocket) : List Lockout :=
  (if b.overheat p then [.overheat] else []) ++ (if b.cutoutOpen p then [.highLimit] else []) ++
    if b.exhaustFaulted p then [.sensor] else []

/-! ## Pocket and drum -/

/-- DRYING and EXTENDING are the heating states (R18). -/
def CycleState.heating : CycleState → Bool
  | .drying | .extending => true
  | _ => false

/-- STARTING, DRYING, EXTENDING and COOLING are the active states (R18). -/
def CycleState.isActive : CycleState → Bool
  | .starting | .drying | .extending | .cooling => true
  | _ => false

/-- The states in which freshness counts (R45). -/
def CycleState.countsFreshness : CycleState → Bool
  | .starting | .drying | .extending | .cooling | .creaseGuard | .paused => true
  | _ => false

/-- MOTOR_RUN is on in SPINUP and RUN (R52). -/
def Drum.motorOn (d : Drum) : Bool := d.state == .spinup || d.state == .run

/-- The MOTOR_RUN output of a pocket: off from step 2 of a reset on, whatever the drum's item (R172). -/
def State.motorRun (s : State) (p : Pocket) : Bool := s.phase == .running && (s.blocks.pocket p).drum.motorOn

def Direction.flip : Direction → Direction
  | .fwd => .rev
  | .rev => .fwd

/-- The run length in seconds, by held request and direction; none is a run without end (R59). -/
def runLength (t : Tuning) (d : Drum) : Option Nat :=
  match d.request, d.dir with
  | .burst, _ => some 20
  | _, .fwd => if t.revRun = 0 then none else some t.fwdRun
  | _, .rev => some t.revRun

/-- The next direction a run that ends on its schedule or by a tangle leaves (R59, R61). -/
def flippedNext (t : Tuning) (d : Drum) : Direction :=
  if d.request ≠ .burst ∧ t.revRun = 0 then .fwd else d.dir.flip

/-- The time limit has been reached (R31). -/
def PocketUnit.limitReached (u : PocketUnit) : Bool := decide (u.tuning.timeLimit * 60 ≤ u.cycle.elapsed)

/-- The effective cool target (R35, R74): COOL_SET alone while the inlet channel is FAULTED or has no filtered
temperature. -/
def Blocks.coolTarget (b : Blocks) (p : Pocket) : Int :=
  match b.inlet.fault, b.inlet.filtered with
  | none, some t => max ((b.pocket p).tuning.coolSet : Int) (t + 20)
  | _, _ => ((b.pocket p).tuning.coolSet : Int)

/-! ## Heat permission and the dryness gate -/

/-- Heat permission, worked out from its seven terms (R82). -/
def Blocks.permissionHolds (b : Blocks) (p : Pocket) : Bool :=
  (b.pocket p).cycle.state.heating && ((b.pocket p).drum.state == .run) && (b.pocket p).cycle.lockout.isNone &&
    !b.exhaustFaulted p && !b.cutoutOpen p && b.airflowHolds p && !b.held

/-- The gate, worked out from its three terms (R118, R119). -/
def PocketUnit.gateHolds (u : PocketUnit) : Bool :=
  u.cycle.state.heating && (u.drum.state == .run) && decide (u.tuning.speedLow ≤ u.drum.speed)

/-! ## The budget (R96, R97, R99) -/

/-- The sum of the costs of a list of stages. -/
def Blocks.costSum (b : Blocks) (stages : List Stage) : Nat := (stages.map b.cost).sum

/-- The granted sum (R96). -/
def Blocks.grantedSum (b : Blocks) : Nat := b.costSum b.load.grants

/-- The base budget (R97). -/
def Blocks.baseBudget (b : Blocks) : Nat := min (rowSupplyMax b.working) b.load.supplyLimit

/-- The number of running start allowances (R98). -/
def Blocks.allowances (b : Blocks) : Nat :=
  (if b.load.allowanceA.isSome then 1 else 0) + if b.load.allowanceB.isSome then 1 else 0

/-- The effective budget (R99). -/
def Blocks.effectiveBudget (b : Blocks) : Nat :=
  if b.load.mains.state ≠ .normal ∨ b.held = true ∨ b.optionState = .optionFault then 0
  else b.baseBudget - b.startCost * b.allowances

/-! ## The chord's threshold (R146) -/

/-- The threshold in effect, in ms. -/
def Blocks.chordThreshold (b : Blocks) : Nat :=
  if b.pocketA.drum.state = .stopped ∧ b.pocketB.drum.state = .stopped then 50 else 2000

/-! ## ALERT and the top cause (R155) -/

/-- The causes that are pending or forced and also enabled. -/
def Alerts.shown (a : Alerts) : BitVec 16 := (a.pending ||| a.forced) &&& a.enabled

/-- The top cause: the lowest-numbered one shown, if any. -/
def Alerts.top (a : Alerts) : Option Nat := (List.range 16).find? fun k => a.shown.getLsbD k

/-- The ALERT output (R155): through the start-up steps it is not asserted, and an OPTION_FAULT asserts it. -/
def State.alert (s : State) : Bool :=
  s.phase == .running && (s.blocks.alerts.shown != 0 || s.blocks.optionState == .optionFault)

end Sys2Proof.Machine
end

