-- ==== Sys2Proof/Machine/Report.lean ====
section
/-! DEFINITION. The report page: the bytes of the four report records formed from the live state (R177 to R181), and the snapshots they are frozen into (R12). -/

namespace Sys2Proof.Machine

/-! ## Codes (R180) -/

def CycleState.code : CycleState → Nat
  | .idle => 0 | .starting => 1 | .drying => 2 | .extending => 3 | .cooling => 4 | .creaseGuard => 5
  | .done => 6 | .paused => 7 | .faulted => 8 | .held => 9

def Lockout.code : Lockout → Nat
  | .overheat => 0 | .highLimit => 1 | .sensor => 2 | .stale => 3 | .drum => 4

def EndFlag.code : EndFlag → Nat
  | .confirmedDry => 0 | .limitReached => 1 | .timedEnd => 2 | .advanced => 3 | .aborted => 4

def ActionResult.code : ActionResult → Nat
  | .none => 0 | .accepted => 1 | .notNow => 2 | .illegal => 3 | .held => 4

def DrumState.code : DrumState → Nat
  | .stopped => 0 | .spinup => 1 | .run => 2 | .coast => 3

def DrumRequest.code : DrumRequest → Nat
  | .stop => 0 | .run => 1 | .burst => 2

def drumFaultCode : Option DrumFault → Nat
  | none => 0 | some .spinupFail => 1 | some .stall => 2 | some .noStop => 3 | some .belt => 4

def StageState.code : StageState → Nat
  | .off => 0 | .dwell => 1 | .queued => 2 | .on => 3

def Channel.code (c : Channel) : Nat :=
  match c.fault with
  | none => 0 | some .low => 1 | some .high => 2

def CommandResult.code : CommandResult → Nat
  | .ok => 0 | .refused => 1 | .collided => 2 | .linkBusy => 3 | .timeout => 4

def OptionState.code : OptionState → Nat
  | .valid => 0 | .optionFault => 1

def ResetKind.code : ResetKind → Nat
  | .powerOn => 0 | .pin => 1 | .service => 2

def MainsState.code : MainsState → Nat
  | .normal => 0 | .sagged => 1 | .lost => 2

def ChordState.code : ChordState → Nat
  | .inactive => 0 | .qualifying => 1 | .spent => 2

def Level.code : Level → Nat
  | .unsettled => 0 | .active => 1 | .inactive => 2

def Direction.isRev : Direction → Bool
  | .fwd => false | .rev => true

/-! ## Bytes (R181) -/

def byteOf (n : Nat) : Byte := BitVec.ofNat 8 n

/-- A flag at bit k of a number. -/
def flagAt (k : Nat) (flag : Bool) : Nat := if flag then 2 ^ k else 0

/-- An optional item: its code, or 0xFF when absent. -/
def optionalByte (code : Option Nat) : Byte := byteOf (code.getD 0xFF)

/-- A two-byte temperature: absent 0x8000, −32768 shown as −32767 (R181). -/
def temperatureBytes : Option Int → List Byte
  | none => [0x00, 0x80]
  | some t => toLe 2 (BitVec.ofInt 16 (if t = -32768 then -32767 else t)).toNat

/-- A one-byte temperature: kept within −127..127, absent 0x80 (R181). -/
def temperatureByte : Option Int → Byte
  | none => 0x80
  | some t => BitVec.ofInt 8 (if 127 < t then 127 else if t < -127 then -127 else t)

/-- A three-byte field set (R183). -/
def setBytes24 (v : BitVec 24) : List Byte := toLe 3 v.toNat

/-- Dwell remaining in whole seconds, truncated: of a stage in DWELL, 0 otherwise (R89). -/
def StageUnit.dwellSeconds (u : StageUnit) : Nat := if u.state = .dwell then (5000 - u.dwell) / 1000 else 0

/-- The flags byte of a pocket report record (R177). -/
def PocketUnit.flags (u : PocketUnit) : Nat :=
  flagAt 0 u.drum.dir.isRev + flagAt 1 u.drum.nextDir.isRev + flagAt 2 u.drum.confirmed + flagAt 3 u.permission +
    flagAt 4 u.stage1.want + flagAt 5 u.stage2.want + flagAt 6 u.dryness.gateOpen

/-- The 64 bytes of a pocket report record (R177). -/
def pocketReport (u : PocketUnit) (r : TakeResult) : List Byte :=
  let c := u.cycle
  let d := u.drum
  [r.seq, byteOf r.action.code] ++ setBytes24 r.clamped ++ setBytes24 r.torn ++ setBytes24 r.refused ++
  [byteOf c.state.code, optionalByte (c.startTarget.map CycleState.code), optionalByte (c.resume.map CycleState.code),
   optionalByte (c.holdFrom.map CycleState.code), optionalByte (c.lockout.map Lockout.code),
   optionalByte (c.endFlag.map EndFlag.code), byteOf c.freshness] ++
  toLe 2 c.elapsed ++ toLe 2 c.th ++ toLe 2 c.extension ++ toLe 2 c.cool ++ toLe 2 c.creaseTimer ++
  toLe 2 c.creaseElapsed ++
  [byteOf u.flags, byteOf d.state.code, byteOf d.request.code, byteOf (drumFaultCode d.lastFault)] ++
  toLe 2 d.period ++ [byteOf d.speed, byteOf (d.spinTimer / 1000)] ++ toLe 2 (d.runTimer / 1000) ++
  [byteOf (d.coastTimer / 1000), byteOf (d.drag + 16 * d.tangles), byteOf u.exhaust.code] ++
  toLe 2 u.exhaust.lastRaw ++ temperatureBytes u.exhaust.translated ++ temperatureBytes u.exhaust.filtered ++
  [byteOf u.stage1.state.code, byteOf u.stage2.state.code, byteOf u.stage1.dwellSeconds,
   byteOf u.stage2.dwellSeconds] ++
  toLe 2 u.dryness.lastSample ++ [byteOf u.dryness.gated, byteOf u.dryness.hits] ++ toLe 2 u.dryness.lastHits ++
  toLe 2 u.dryness.wetness ++ toLe 2 u.dryness.windows ++ [byteOf u.dryness.streak]

/-! ## The common record (R178) -/

/-- The place of a stage: 0 in neither list, 1 to 4 in the queue, 5 to 8 in the grant list. -/
def LoadShare.place (l : LoadShare) (st : Stage) : Nat :=
  match l.queue.findIdx? (fun e => e.stage == st), l.grants.findIdx? (fun g => g == st) with
  | some i, _ => i + 1
  | none, some i => i + 5
  | none, none => 0

/-- Not-before remaining of a stage in 100 ms units, truncated; 63 for none. -/
def LoadShare.notBeforeUnits (l : LoadShare) (st : Stage) : Nat :=
  match l.queue.find? (fun e => e.stage == st) with
  | some e => (e.notBefore.map fun ms => ms / 100).getD 63
  | none => 63

/-- The bytes 0x90 to 0x93: not-before, output, and a pin level. -/
def stageByte (b : Blocks) (st : Stage) (pin : Bool) : Byte :=
  byteOf (b.load.notBeforeUnits st + flagAt 6 (b.load.output st) + flagAt 7 pin)

/-- The debounced levels of four inputs, two bits each. -/
def levelsByte (b : Blocks) (i : Nat) : Byte :=
  byteOf ((b.input i).level.code + 4 * (b.input (i + 1)).level.code + 16 * (b.input (i + 2)).level.code +
    64 * (b.input (i + 3)).level.code)

/-- The 32 bytes of the common report record (R178). They are formed from their items in OPTION_FAULT as in VALID, for a
FETCH and for a PEEK (R12, R17, R181), the inlet's raw sample and temperatures included; R94 closes with a remark that the
controller cannot read those in OPTION_FAULT (DEDUCED, log entry 43). -/
def commonReport (s : State) : List Byte :=
  let b := s.blocks
  let r := s.path.resultCommon
  let m := b.load.mains
  let pin := fun i => (b.input i).pin
  let inletWord := b.inlet.lastRaw % 1024 + 1024 * b.inlet.code + flagAt 12 (pin 8) + flagAt 13 (pin 9) +
    flagAt 14 (pin 10) + flagAt 15 (pin 11)
  let chordWord := b.contacts.chordTimer + 2048 * s.service.collided + flagAt 15 (pin 7)
  [r.seq,
   byteOf (r.clamped.toNat % 32 + flagAt 5 b.held + flagAt 6 s.service.permit + 128 * b.optionState.code),
   byteOf (r.torn.toNat % 32 + 32 * s.service.lastResult.code),
   byteOf (r.refused.toNat % 32 + 32 * s.resetKind.code + flagAt 7 (pin 4))] ++
  toLe 2 b.alerts.pending.toNat ++ toLe 2 b.alerts.forced.toNat ++ toLe 2 b.alerts.enabled.toNat ++
  [byteOf (b.alerts.top.getD 0xFF),
   byteOf (b.baseBudget + 32 * b.allowances + flagAt 7 (pin 5)),
   byteOf (b.effectiveBudget + 32 * m.state.code + flagAt 7 (pin 6)),
   byteOf (b.grantedSum + 64 * b.contacts.chord.code),
   byteOf (b.load.place .a1 + 16 * b.load.place .a2),
   byteOf (b.load.place .b1 + 16 * b.load.place .b2),
   stageByte b .a1 (pin 0), stageByte b .a2 (pin 1), stageByte b .b1 (pin 2), stageByte b .b2 (pin 3),
   byteOf b.load.pacing,
   byteOf (m.sagStreak + 8 * m.restoreStreak),
   byteOf m.lastAmplitude] ++
  toLe 2 inletWord ++ [temperatureByte b.inlet.translated, temperatureByte b.inlet.filtered] ++
  [levelsByte b 0, levelsByte b 4, levelsByte b 8] ++ toLe 2 chordWord

/-! ## The fault list record (R179) -/

/-- The six bytes of an occupied slot. -/
def entryBytes (e : FaultEntry) : List Byte :=
  [e.serial, byteOf e.cause.number,
   byteOf (match e.cause.pocketOf with | some .a => 0 | some .b => 1 | none => 2),
   optionalByte (e.state.map CycleState.code)] ++ toLe 2 e.elapsed

/-- The 96 bytes of the fault list record: the slots after the newest entry read 0xFF. -/
def faultReport (faults : List FaultEntry) : List Byte :=
  let used := faults.flatMap entryBytes
  (used ++ List.replicate (96 - used.length) 0xFF).take 96

/-! ## Snapshots (R12) -/

/-- The four report records. -/
inductive ReportId where
  | pocket (p : Pocket)
  | common
  | faults
  deriving DecidableEq, Repr

/-- The report record a page offset lies in, and the offset within it (R3). -/
def reportPlace (off : Nat) : ReportId × Nat :=
  if off < 0x40 then (.pocket .a, off)
  else if off < 0x80 then (.pocket .b, off - 0x40)
  else if off < 0xA0 then (.common, off - 0x80)
  else (.faults, off - 0xA0)

/-- A record formed from the live state. -/
def liveRecord (s : State) : ReportId → List Byte
  | .pocket .a => pocketReport s.blocks.pocketA s.path.resultA
  | .pocket .b => pocketReport s.blocks.pocketB s.path.resultB
  | .common => commonReport s
  | .faults => faultReport s.blocks.alerts.faults

/-- The snapshot kept of a record. -/
def Snapshots.get (snaps : Snapshots) : ReportId → Option (List Byte)
  | .pocket .a => snaps.pocketA
  | .pocket .b => snaps.pocketB
  | .common => snaps.common
  | .faults => snaps.faults

def Snapshots.set (snaps : Snapshots) (r : ReportId) (v : List Byte) : Snapshots :=
  match r with
  | .pocket .a => { snaps with pocketA := some v }
  | .pocket .b => { snaps with pocketB := some v }
  | .common => { snaps with common := some v }
  | .faults => { snaps with faults := some v }

/-- The records substituted: all four in VALID, the common one alone in OPTION_FAULT (R11, R17). -/
def substituted (b : Blocks) (r : ReportId) : Bool := b.valid || r == .common

/-- The byte a FETCH or a PEEK returns at an address, and the snapshots after it: the part's byte in the report
page, from a snapshot frozen when its record is first reached; the RAM's byte elsewhere (R11, R12, R15, R17). -/
def readLink (s : State) (snaps : Snapshots) (addr : BitVec 17) : Byte × Snapshots :=
  match pageOffset s.blocks.reportBase addr with
  | some off =>
    let (r, i) := reportPlace off
    if substituted s.blocks r then
      match snaps.get r with
      | some bytes => (bytes.getD i 0, snaps)
      | none => ((liveRecord s r).getD i 0, snaps.set r (liveRecord s r))
    else (readRam s.ram addr.toNat, snaps)
  | none => (readRam s.ram addr.toNat, snaps)

/-- The bytes a FETCH or a PEEK returns from an address on, and the snapshots after them (R2, R11). -/
def readLinkBytes (s : State) : Nat → Snapshots → BitVec 17 → List Byte × Snapshots
  | 0, snaps, _ => ([], snaps)
  | n + 1, snaps, addr =>
    let (v, snaps₁) := readLink s snaps addr
    let (rest, snaps₂) := readLinkBytes s n snaps₁ (addr + 1)
    (v :: rest, snaps₂)

/-- The RAM's bytes from an address on: what a transparent path returns (R16). -/
def readRamBytes (ram : List Host.Cell) : Nat → BitVec 17 → List Byte
  | 0, _ => []
  | n + 1, addr => readRam ram addr.toNat :: readRamBytes ram n (addr + 1)

end Sys2Proof.Machine
end

