-- ==== Sys2Proof/Machine/LoadShare.lean ====
section
/-! DEFINITION. Shared operations of heater stage control and the load share unit: wants, requests, withdrawals, revocation, grant, start allowances (chapters 4 and 5). -/

namespace Sys2Proof.Machine

/-! ## Wants (R86, R87) -/

/-- A stage's want at a filtered temperature: need unmet or at the upper edge not wanted, at the lower edge wanted,
between kept (R86, R87). -/
def wantAt (need : Bool) (lower upper te : Int) (want : Bool) : Bool :=
  if need = false then false else if te ≤ lower then true else if upper ≤ te then false else want

/-- The wants of both stages of a pocket evaluated; with no filtered temperature they stand (R87). -/
def PocketUnit.evaluateWants (u : PocketUnit) : PocketUnit :=
  match u.exhaust.filtered with
  | none => u
  | some te =>
    let t := u.tuning
    let top1 : Int := t.heatSet
    let top2 : Int := (t.heatSet : Int) - t.stage2Offset
    { u with
      stage1 := { u.stage1 with want := wantAt (decide (1 ≤ t.heatLevel)) (top1 - t.heatBand) top1 te u.stage1.want }
      stage2 := { u.stage2 with want := wantAt (decide (2 ≤ t.heatLevel)) (top2 - t.heatBand) top2 te u.stage2.want } }

def Blocks.evaluateWants (b : Blocks) (p : Pocket) : Blocks := b.modPocket p PocketUnit.evaluateWants

/-! ## Requests and withdrawals (R88, R89, R100, R104) -/

/-- An OFF stage is requested: it becomes QUEUED and joins the tail of the queue with no not-before time. -/
def Blocks.requestStage (b : Blocks) (st : Stage) : Blocks :=
  (b.modStage st fun u => { u with state := .queued }).modLoad fun l =>
    { l with queue := l.queue ++ [{ stage := st, notBefore := none }] }

/-- A stage is taken out of whichever list holds it (R104). -/
def LoadShare.remove (l : LoadShare) (st : Stage) : LoadShare :=
  { l with queue := l.queue.filter (fun e => e.stage != st), grants := l.grants.filter (fun g => g != st) }

/-- A stage as its withdrawal leaves it: in DWELL with its timer at 0 (R89), or OFF as its dwell left it where the dwell
has ended at this very instant (R91). -/
def StageUnit.withdrawn (u : StageUnit) : StageUnit :=
  if u.ended then { u with state := .off } else { u with state := .dwell, dwell := 0 }

/-- A QUEUED or ON stage is withdrawn and leaves its list (R89). One whose dwell has ended at this very instant has not
been requested after all: a grant of the instant is undone, and the pacing timer stands at 250 ms, where it stood for the
grant (R91, R101; log entry 44). -/
def Blocks.withdrawStage (b : Blocks) (st : Stage) : Blocks :=
  let undone := (b.stage st).ended && (b.stage st).state == .on
  (b.modStage st StageUnit.withdrawn).modLoad fun l =>
    { l.remove st with pacing := if undone then 250 else l.pacing }

/-- The stage is wanted and its pocket's permission is present (R88). -/
def Blocks.called (b : Blocks) (st : Stage) : Bool := (b.stage st).want && (b.pocket (stagePocket st)).permission

/-- A stage brought to what its want and the pocket's permission call for, apart from the dwell (R88, R89, R91). -/
def Blocks.reconcileStage (b : Blocks) (st : Stage) : Blocks :=
  match (b.stage st).state with
  | .off => if b.called st then b.requestStage st else b
  | .queued | .on => if b.called st then b else b.withdrawStage st
  | .dwell => b

/-- Heat permission and the gate judged once the event's terms have all been reported (R83, R118): at a permission
change the wants are evaluated (R87), then stage 1 and stage 2 act. -/
def Blocks.refreshPocket (b : Blocks) (p : Pocket) : Blocks :=
  let now := b.permissionHolds p
  let b₁ := if (b.pocket p).permission = now then b else b.evaluateWants p
  let b₂ := b₁.modPocket p fun u => { u with permission := now, dryness := { u.dryness with gateOpen := u.gateHolds } }
  (b₂.reconcileStage (stagesOf p).1).reconcileStage (stagesOf p).2

/-! ## Revocation and grant (R101, R105) -/

/-- The oldest grants whose costs fit within the budget, and those taken back, each in grant order: taking the
newest first until the sum fits leaves the longest such run. -/
def splitGrants (cost : Stage → Nat) (budget : Nat) : List Stage → List Stage × List Stage
  | [] => ([], [])
  | g :: rest =>
    if cost g ≤ budget then
      let (kept, revoked) := splitGrants cost (budget - cost g) rest
      (g :: kept, revoked)
    else ([], g :: rest)

/-- Each listed stage becomes QUEUED (R90). -/
def Blocks.queueStages : List Stage → Blocks → Blocks
  | [], b => b
  | st :: rest, b => Blocks.queueStages rest (b.modStage st fun u => { u with state := .queued })

/-- Granted stages are revoked, newest first, until the granted sum fits; they head the queue in the order of their
grants with not-before times of 5000 ms (R105). -/
def Blocks.revoke (b : Blocks) : Blocks :=
  let (kept, revoked) := splitGrants b.cost b.effectiveBudget b.load.grants
  (Blocks.queueStages revoked b).modLoad fun l =>
    { l with
      grants := kept
      queue := revoked.map (fun st => { stage := st, notBefore := some 5000 }) ++ l.queue }

/-- The head of the queue may be granted: it fits, the pacing timer stands at 250 ms, it has no not-before time
(R101). -/
def Blocks.headFits (b : Blocks) : Option Stage :=
  match b.load.queue with
  | e :: _ =>
    if e.notBefore = none ∧ b.load.pacing = 250 ∧ b.grantedSum + b.cost e.stage ≤ b.effectiveBudget then some e.stage
    else none
  | [] => none

/-- The head of the queue is judged, and granted if it may be (R101, R102). -/
def Blocks.judgeHead (b : Blocks) : Blocks :=
  match b.headFits with
  | some st =>
    (b.modStage st fun u => { u with state := .on }).modLoad fun l =>
      { l with queue := l.queue.tail, grants := l.grants ++ [st], pacing := 0 }
  | none => b

/-- The end of an event: both pockets' permissions and gates are judged, stages act, the budget is restored and the
head of the queue judged (R83, R91, R99, R101, R105). -/
def Blocks.settle (b : Blocks) : Blocks :=
  (((b.refreshPocket .a).refreshPocket .b).revoke).judgeHead

/-- A spin-up notice sets the pocket's start allowance running with 2000 ms (R66, R98). -/
def Blocks.beginAllowance (b : Blocks) (p : Pocket) : Blocks :=
  b.modLoad fun l => l.setAllowance p (some 2000)

end Sys2Proof.Machine
end

