-- ==== Sys2Proof/Machine/Sequencer.lean ====
section
/-! DEFINITION. Shared operations of the pocket sequencer and the drum drive: stop and run requests, drum faults, lockouts, the entries to each pocket state, spin-up, runs and coasts (chapters 2 and 3). -/

namespace Sys2Proof.Machine

/-! ## Stop requests (R56) -/

/-- The drum goes to COAST: MOTOR_RUN changes, so the silence timer restarts, and the coast timer restarts (R55,
R67). -/
def Drum.toCoast (d : Drum) : Drum := { d with state := .coast, coastTimer := 0, silence := 0 }

/-- The drum goes to COAST if its motor is on; otherwise it keeps its state. -/
def Drum.motorOff (d : Drum) : Drum := if d.motorOn then d.toCoast else d

/-- A stop request: STOP is held, and a drum in SPINUP or RUN coasts with its next direction kept (R56). -/
def Drum.stopRequest (d : Drum) : Drum := { d.motorOff with request := .stop }

def Blocks.stopDrum (b : Blocks) (p : Pocket) : Blocks := b.modDrum p Drum.stopRequest

/-! ## Lockout (R41 to R43) -/

/-- The cause is recorded if none is (R41, R43). -/
def Cycle.recordLockout (c : Cycle) (k : Lockout) : Cycle := { c with lockout := some (c.lockout.getD k) }

/-- FAULTED is entered: start target and resume state removed, stop request. -/
def Blocks.goFaulted (b : Blocks) (p : Pocket) : Blocks :=
  (b.modCycle p fun c => { c with state := .faulted, startTarget := none, resume := none }).stopDrum p

/-- A lockout fault reaches the pocket (R41); with a cause recorded it changes nothing (R43). -/
def Blocks.lockoutFault (b : Blocks) (p : Pocket) (k : Lockout) : Blocks :=
  if (b.pocket p).cycle.lockout.isSome then b
  else
    match (b.pocket p).cycle.state with
    | .starting | .drying | .extending =>
      b.modCycle p fun c => { c with lockout := some k, state := .cooling, startTarget := none }
    | .cooling => b.modCycle p fun c => { c with lockout := some k }
    | .paused | .creaseGuard => (b.modCycle p fun c => { c with lockout := some k }).goFaulted p
    | .idle | .done | .faulted | .held => b

/-- The pocket has entered a state: a lockout condition that holds sets the lockout if no cause is recorded (R41).
Where several hold, the manual does not say which is met first: a free choice (log entry 4). -/
def Blocks.entryLockout (b : Blocks) (p : Pocket) : Blocks :=
  if (b.pocket p).cycle.lockout.isSome then b
  else
    match b.lockoutConditions p with
    | [] => b
    | [k] => b.lockoutFault p k
    | k :: more =>
      let i := Config.free b.draws % (more.length + 1)
      Blocks.lockoutFault { b with draws := b.draws + 1 } p ((k :: more).getD i k)

/-- The sequencer answers a drum fault (R42, R48). -/
def Blocks.answerDrumFault (b : Blocks) (p : Pocket) : Blocks :=
  match (b.pocket p).cycle.state with
  | .held => b.modCycle p fun c => { c.recordLockout .drum with holdFrom := some .faulted, resume := none }
  | .faulted => b.modCycle p fun c => c.recordLockout .drum
  | _ => (b.modCycle p fun c => c.recordLockout .drum).goFaulted p

/-- A drum fault (R63): motor off, STOP held, the fault recorded, DRUM raised, the sequencer told. -/
def Blocks.drumFault (b : Blocks) (p : Pocket) (k : DrumFault) : Blocks :=
  ((b.modDrum p fun d => { d.stopRequest with lastFault := some k }).raiseCause (.drum p)).answerDrumFault p

/-! ## Entries to the pocket states -/

/-- COOLING is entered, with an end flag or the one it had; the run request stands (R34). -/
def Blocks.enterCooling (b : Blocks) (p : Pocket) (flag : Option EndFlag) : Blocks :=
  (b.modCycle p fun c =>
    { c with state := .cooling, startTarget := none, endFlag := flag <|> c.endFlag }).entryLockout p

/-- The resume state a pocket records: the state it left, or from STARTING the start target (R23, R46). -/
def Cycle.resumeState (c : Cycle) : Option CycleState := if c.state = .starting then c.startTarget else some c.state

/-- The pocket pauses as R23 gives for PAUSE; with a lockout cause recorded it goes to FAULTED instead (R43). -/
def Blocks.pausePocket (b : Blocks) (p : Pocket) : Blocks :=
  if (b.pocket p).cycle.lockout.isSome then b.goFaulted p
  else
    ((b.modCycle p fun c => { c with state := .paused, resume := c.resumeState, startTarget := none }).stopDrum
      p).entryLockout p

/-- DONE is entered: stop request, and the pocket's DONE cause is raised (R36). -/
def Blocks.enterDone (b : Blocks) (p : Pocket) : Blocks :=
  ((b.modCycle p fun c => { c with state := .done }).stopDrum p).raiseCause (.done p)

/-- IDLE is entered: the start target and resume state are removed, stop request. -/
def Blocks.enterIdle (b : Blocks) (p : Pocket) : Blocks :=
  (b.modCycle p fun c => { c with state := .idle, startTarget := none, resume := none }).stopDrum p

/-- CREASE_GUARD is entered: stop request, guard entry notice, both crease counts 0 (R37, R56). -/
def Blocks.enterCreaseGuard (b : Blocks) (p : Pocket) : Blocks :=
  (((b.modCycle p fun c => { c with state := .creaseGuard, creaseTimer := 0, creaseElapsed := 0 }).stopDrum p).modDrum
    p fun d => { d with nextDir := .fwd }).entryLockout p

/-- Cool end: the first condition of R36's table that holds. -/
def Blocks.coolEnd (b : Blocks) (p : Pocket) : Blocks :=
  let u := b.pocket p
  if u.cycle.lockout.isSome then b.goFaulted p
  else if u.cycle.endFlag = some .aborted then b.enterIdle p
  else if u.tuning.crease = 1 then b.enterCreaseGuard p
  else b.enterDone p

/-- The time limit compared in DRYING and EXTENDING (R31). -/
def Blocks.judgeTimeLimit (b : Blocks) (p : Pocket) : Blocks :=
  let u := b.pocket p
  if u.limitReached then
    match u.cycle.state with
    | .drying => b.enterCooling p (some (if u.tuning.mode = 1 then .timedEnd else .limitReached))
    | .extending => b.enterCooling p (some .confirmedDry)
    | _ => b
  else b

/-- The drum drive reports RUN: a STARTING pocket goes to its start target (R30). -/
def Blocks.runReport (b : Blocks) (p : Pocket) : Blocks :=
  let c := (b.pocket p).cycle
  if c.state = .starting then
    ((b.modCycle p fun c => { c with state := c.startTarget.getD .drying, startTarget := none }).entryLockout
      p).judgeTimeLimit p
  else b

/-- Dry detection with extension E is reported (R32). -/
def Blocks.dryReport (b : Blocks) (p : Pocket) (e : Nat) : Blocks :=
  let u := b.pocket p
  if u.cycle.state = .drying ∧ u.tuning.mode = 0 then
    if e = 0 then (b.modCycle p fun c => { c with extension := 0 }).enterCooling p (some .confirmedDry)
    else
      (b.modCycle p fun c =>
        { c with state := .extending, extension := e, endFlag := some .confirmedDry }).entryLockout p
  else b

/-- A tangle report with the count at 4 pauses a pocket in DRYING, EXTENDING or COOLING (R40). -/
def Blocks.tangleReport (b : Blocks) (p : Pocket) : Blocks :=
  match (b.pocket p).cycle.state with
  | .drying | .extending | .cooling => b.pausePocket p
  | _ => b

/-- The pocket's door opens (R39). -/
def Blocks.doorOpens (b : Blocks) (p : Pocket) : Blocks :=
  match (b.pocket p).cycle.state with
  | .starting | .drying | .extending | .cooling => b.pausePocket p
  | .creaseGuard | .done => b.enterIdle p
  | .idle | .paused | .faulted | .held => b

/-- The pocket's lint filter is removed (R39). -/
def Blocks.lintRemoved (b : Blocks) (p : Pocket) : Blocks :=
  match (b.pocket p).cycle.state with
  | .starting | .drying | .extending | .cooling => b.pausePocket p
  | _ => b

/-- Freshness remaining is reloaded to OPT_FRESH (R45). -/
def Blocks.reloadFreshness (b : Blocks) (p : Pocket) : Blocks :=
  b.modCycle p fun c => { c with freshness := b.freshSeconds }

/-- A panel stop reaches a pocket (R49). -/
def Blocks.panelStopPocket (b : Blocks) (p : Pocket) : Blocks :=
  match (b.pocket p).cycle.state with
  | .starting | .drying | .extending | .cooling | .creaseGuard | .paused =>
    if (b.pocket p).cycle.lockout.isSome then b.goFaulted p else b.enterIdle p
  | .idle | .done | .faulted | .held => b

/-- The chord qualifies: SPENT, and a panel stop to both pockets (R147). -/
def Blocks.panelStop (b : Blocks) : Blocks :=
  ((({ b with contacts := { b.contacts with chord := .spent } } : Blocks).panelStopPocket .a).panelStopPocket .b)

/-- The chord is judged against the threshold in effect (R146). -/
def Blocks.judgeChord (b : Blocks) : Blocks :=
  if b.contacts.chord = .qualifying ∧ b.chordThreshold ≤ b.contacts.chordTimer then b.panelStop else b

/-! ## Spin-up and run requests (R56, R57) -/

/-- A drum in STOPPED that RUN or BURST is held for begins its spin-up at the first moment its stop is confirmed,
no hold stands and the row is VALID; a belt that shows broken refuses it with a BELT fault (R57). -/
def Blocks.trySpinUp (b : Blocks) (p : Pocket) : Blocks :=
  let u := b.pocket p
  if u.drum.state = .stopped ∧ u.drum.request ≠ .stop ∧ u.drum.confirmed = true ∧ b.held = false ∧
      b.optionState = .valid then
    if b.beltBroken p then b.drumFault p .belt
    else
      (b.modDrum p fun d =>
        let next := if d.request = .run ∧ u.tuning.revRun = 0 then Direction.fwd else d.nextDir
        { d with nextDir := next, dir := next, state := .spinup, silence := 0, confirmed := false, spinTimer := 0,
                 runTimer := 0, drag := 0 }).beginAllowance p
  else b

/-- A run request (R56). -/
def Blocks.runRequest (b : Blocks) (p : Pocket) : Blocks :=
  (b.modDrum p fun d => { d with request := .run }).trySpinUp p

/-- A burst request (R56, R70). -/
def Blocks.burstRequest (b : Blocks) (p : Pocket) : Blocks :=
  (b.modDrum p fun d => { d with request := .burst }).trySpinUp p

/-! ## Runs and coasts (R58 to R67) -/

/-- A run ends on its schedule or by a tangle: COAST, the next direction flipped, STOP held after a burst (R59,
R61). -/
def Drum.endRun (t : Tuning) (d : Drum) : Drum :=
  { d.toCoast with nextDir := flippedNext t d, request := if d.request = .burst then .stop else d.request }

/-- The run ends if the drum is in RUN and its run timer is at or above the run length (R59, R60). -/
def Blocks.judgeRunEnd (b : Blocks) (p : Pocket) : Blocks :=
  let u := b.pocket p
  match u.drum.state, runLength u.tuning u.drum with
  | .run, some len => if len * 1000 ≤ u.drum.runTimer then b.modDrum p (Drum.endRun u.tuning) else b
  | _, _ => b

/-- The drum enters RUN: the run is reported for a cycle run, and a run of length 0 ends in the event (R58, R72). -/
def Blocks.enterRun (b : Blocks) (p : Pocket) : Blocks :=
  let b₁ := b.modDrum p fun d => { d with state := .run, runTimer := 0, drag := 0 }
  let b₂ := if (b₁.pocket p).drum.request = .run then b₁.runReport p else b₁
  b₂.judgeRunEnd p

/-- The drum enters STOPPED: the period reference is discarded, the chord is judged at the change, and the spin-up
follows if RUN or BURST is held (R67, R146). -/
def Blocks.enterStopped (b : Blocks) (p : Pocket) : Blocks :=
  ((b.modDrum p fun d => { d with state := .stopped, reference := none }).judgeChord).trySpinUp p

/-- A drum in COAST whose coast timer is at or above PAUSE with stopped-confirmed set enters STOPPED (R67). -/
def Blocks.judgeCoast (b : Blocks) (p : Pocket) : Blocks :=
  let u := b.pocket p
  if u.drum.state = .coast ∧ u.drum.confirmed = true ∧ u.tuning.pause * 1000 ≤ u.drum.coastTimer then b.enterStopped p
  else b

/-- A tangle event (R61, R62). -/
def Blocks.tangleEvent (b : Blocks) (p : Pocket) : Blocks :=
  let b₁ := b.modPocket p fun u =>
    { u with drum := { u.drum.endRun u.tuning with tangles := min 4 (u.drum.tangles + 1), drag := 0 } }
  if (b₁.pocket p).drum.tangles = 4 then (b₁.raiseCause (.tangle p)).tangleReport p else b₁

/-- A pulse in RUN that set a speed is judged for drag (R61). -/
def Blocks.judgeDrag (b : Blocks) (p : Pocket) : Blocks :=
  let u := b.pocket p
  if u.drum.speed < u.tuning.speedLow then
    if 3 ≤ u.drum.drag + 1 then b.tangleEvent p else b.modDrum p fun d => { d with drag := d.drag + 1 }
  else b.modDrum p fun d => { d with drag := 0 }

end Sys2Proof.Machine
end

