-- ==== Sys2Proof/Machine/Take.lean ====
section
/-! DEFINITION. Shared operations of the take: the answers to the actions (R21 to R27), the delivery of a pocket record's fields, the takes of the pocket and common records, and the take result (R6 to R10). -/

namespace Sys2Proof.Machine

/-! ## Answers to actions (R21 to R27) -/

/-- The action codes of R175 that name an action other than NONE. -/
inductive Action where
  | start | pause | resume | advance | abort | clear
  deriving DecidableEq, Repr

/-- The ACTION code of an action (R175). -/
def Action.code : Action → Byte
  | .start => 1 | .pause => 2 | .resume => 3 | .advance => 4 | .abort => 5 | .clear => 6

/-- The action a code of 1 to 6 names. -/
def actionOfCode : Nat → Option Action
  | 1 => some .start | 2 => some .pause | 3 => some .resume | 4 => some .advance | 5 => some .abort
  | 6 => some .clear | _ => none

/-- Door closed, lint filter present, no lockout cause, no lockout condition: what START and RESUME ask (R22,
R24). A FAULTED exhaust channel is a lockout condition. -/
def Blocks.readyToRun (b : Blocks) (p : Pocket) : Bool :=
  b.doorClosed p && b.lintPresent p && (b.pocket p).cycle.lockout.isNone && (b.lockoutConditions p).isEmpty

/-- What an accepted START clears in the pocket (R22, R56, R133). -/
def PocketUnit.startCycle (fresh : Nat) (u : PocketUnit) : PocketUnit :=
  { u with
    cycle :=
      { u.cycle with
        state := .starting, startTarget := some .drying, resume := none, elapsed := 0, th := 0, extension := 0,
        cool := 0, creaseTimer := 0, creaseElapsed := 0, endFlag := none, freshness := fresh }
    drum := { u.drum with tangles := 0, drag := 0, nextDir := .fwd, lastFault := none }
    dryness := { u.dryness with wetness := 65535, gated := 0, hits := 0, windows := 0, streak := 0, lastHits := 0 } }

/-- START (R22). -/
def Blocks.answerStart (b : Blocks) (p : Pocket) : ActionResult × Blocks :=
  match (b.pocket p).cycle.state with
  | .idle | .done =>
    if b.readyToRun p then (.accepted, (b.modPocket p (PocketUnit.startCycle b.freshSeconds)).runRequest p)
    else (.notNow, b)
  | _ => (.notNow, b)

/-- PAUSE (R23). -/
def Blocks.answerPause (b : Blocks) (p : Pocket) : ActionResult × Blocks :=
  if (b.pocket p).cycle.state.isActive then (.accepted, b.pausePocket p) else (.notNow, b)

/-- RESUME (R24). -/
def Blocks.answerResume (b : Blocks) (p : Pocket) : ActionResult × Blocks :=
  if (b.pocket p).cycle.state = .paused ∧ b.readyToRun p = true then
    (.accepted,
      (b.modCycle p fun c => { c with state := .starting, startTarget := c.resume, resume := none }).runRequest p)
  else (.notNow, b)

/-- ADVANCE (R25). -/
def Blocks.answerAdvance (b : Blocks) (p : Pocket) : ActionResult × Blocks :=
  if (b.pocket p).cycle.state.heating then (.accepted, b.enterCooling p (some .advanced)) else (.notNow, b)

/-- ABORT, by state (R26). -/
def Blocks.answerAbort (b : Blocks) (p : Pocket) : ActionResult × Blocks :=
  match (b.pocket p).cycle.state with
  | .starting | .drying | .extending => (.accepted, b.enterCooling p (some .aborted))
  | .cooling => (.accepted, b.modCycle p fun c => { c with endFlag := some .aborted })
  | .paused | .creaseGuard =>
    (.accepted, (b.modCycle p fun c => { c with endFlag := some .aborted }).enterIdle p)
  | .idle | .done | .faulted | .held => (.notNow, b)

/-- The recorded lockout cause is gone (R27). -/
def Blocks.causeGone (b : Blocks) (p : Pocket) : Lockout → Bool
  | .overheat =>
    match (b.pocket p).exhaust.filtered with
    | some t => decide (t < b.heatLimit - 20)
    | none => true
  | .highLimit => !b.cutoutOpen p
  | .sensor => !b.exhaustFaulted p
  | .stale => true
  | .drum => !b.beltBroken p && (b.pocket p).drum.state == .stopped && (b.pocket p).drum.confirmed

/-- CLEAR (R27). -/
def Blocks.answerClear (b : Blocks) (p : Pocket) : ActionResult × Blocks :=
  let c := (b.pocket p).cycle
  let goIdle := b.modCycle p fun c => { c with state := .idle, lockout := none }
  match c.state with
  | .done => (.accepted, b.modCycle p fun c => { c with state := .idle })
  | .faulted =>
    match c.lockout with
    | some k => if b.causeGone p k then (.accepted, goIdle) else (.notNow, b)
    | none => (.accepted, goIdle)
  | _ => (.notNow, b)

/-- An action of code 1 to 6 in a state other than HELD. -/
def Blocks.answerAction (b : Blocks) (p : Pocket) : Action → ActionResult × Blocks
  | .start => b.answerStart p
  | .pause => b.answerPause p
  | .resume => b.answerResume p
  | .advance => b.answerAdvance p
  | .abort => b.answerAbort p
  | .clear => b.answerClear p

/-- The ACTION byte answered (R8, R21). -/
def Blocks.answerCode (b : Blocks) (p : Pocket) (code : Nat) : ActionResult × Blocks :=
  if code = 0 then (.none, b)
  else
    match actionOfCode code with
    | none => (.illegal, b)
    | some a => if (b.pocket p).cycle.state = .held then (.held, b) else b.answerAction p a

/-! ## Delivery of the fields (R8) -/

/-- A COOL_TIME or COOL_SET taken in COOLING ends cooling if it is met already (R35). -/
def Blocks.judgeCoolingTake (b : Blocks) (p : Pocket) (taken : List PocketField) : Blocks :=
  let u := b.pocket p
  let byTime := taken.contains .coolTime && decide (u.tuning.coolTime * 60 ≤ u.cycle.cool)
  let byTemp := taken.contains .coolSet && u.exhaust.fault.isNone &&
    (match u.exhaust.filtered with | some t => decide (t ≤ b.coolTarget p) | none => false)
  if u.cycle.state = .cooling ∧ (byTime || byTemp) = true then b.coolEnd p else b

/-- The heat fields (R84). -/
def isHeatField : PocketField → Bool
  | .heatSet | .heatBand | .stage2Offset | .heatLevel => true
  | _ => false

/-- The fields in effect are delivered, and each that its owner compares at the take is compared: TIME_LIMIT (R31),
COOL_TIME and COOL_SET (R35), FWD_RUN and REV_RUN (R60), PAUSE (R67), the heat fields (R85). SPEED_LOW's compare
(R119) is the gate's, at the end of the event. The manual gives no order among the fields of one take (R8, R29, R60): this
order, in which a pocket that TIME_LIMIT sends to COOLING can end cooling by the COOL_SET of the same take, and a stop
request comes before the run or coast is judged, is the model's (DESIGN CHOICE, log entry 33). The heat fields evaluate the
wants against the filtered temperature kept, also while the exhaust channel is FAULTED (R85, R87; DESIGN CHOICE, log entry
36). -/
def Blocks.deliver (b : Blocks) (p : Pocket) (j : Judged) : Blocks :=
  let b₀ := b.modPocket p fun u => { u with tuning := j.tuning }
  let b₁ := if j.taken.contains .timeLimit then b₀.judgeTimeLimit p else b₀
  let b₂ := b₁.judgeCoolingTake p j.taken
  let b₃ :=
    if (j.taken.contains .fwdRun || j.taken.contains .revRun) && (b₂.pocket p).drum.request == .run then
      b₂.judgeRunEnd p
    else b₂
  let b₄ := if j.taken.contains .pause then b₃.judgeCoast p else b₃
  if j.taken.any isHeatField then b₄.evaluateWants p else b₄

/-! ## Take results (R10) -/

/-- A take raises TAKE when a set is not empty or the answer is NOT_NOW, ILLEGAL or HELD (R10). -/
def TakeResult.raises (r : TakeResult) : Bool :=
  r.clamped != 0 || r.torn != 0 || r.refused != 0 ||
    match r.action with
    | .none | .accepted => false
    | .notNow | .illegal | .held => true

def Blocks.raiseTake (b : Blocks) (r : TakeResult) : Blocks := if r.raises then b.raiseCause .take else b

def PathUnit.staging (u : PathUnit) : RecordId → Staging
  | .pocket .a => u.stagingA
  | .pocket .b => u.stagingB
  | .common => u.stagingCommon

def PathUnit.setStaging (u : PathUnit) (r : RecordId) (st : Staging) : PathUnit :=
  match r with
  | .pocket .a => { u with stagingA := st }
  | .pocket .b => { u with stagingB := st }
  | .common => { u with stagingCommon := st }

def PathUnit.result (u : PathUnit) : RecordId → TakeResult
  | .pocket .a => u.resultA
  | .pocket .b => u.resultB
  | .common => u.resultCommon

def PathUnit.setResult (u : PathUnit) (r : RecordId) (t : TakeResult) : PathUnit :=
  match r with
  | .pocket .a => { u with resultA := t }
  | .pocket .b => { u with resultB := t }
  | .common => { u with resultCommon := t }

/-- The touched map emptied. -/
def clearTouched (touched : List Bool) : List Bool := touched.map fun _ => false

/-! ## The take of a pocket record (R7, R8) -/

/-- The pocket's blocks after the take of its record, and the take result: fields judged and delivered, the ACTION
byte answered if it is touched, freshness reloaded, TAKE raised if called for. -/
def Blocks.takePocket (b : Blocks) (p : Pocket) (st : Staging) (seq : Byte) : TakeResult × Blocks :=
  let j := judgeFields (b.pocket p) st
  let b₁ := b.deliver p j
  let answered := if st.touched.getD 1 false then b₁.answerCode p (st.bytes.getD 1 0).toNat else (ActionResult.none, b₁)
  let r : TakeResult :=
    { seq := seq, action := answered.1, clamped := j.clamped, torn := j.torn, refused := j.refused }
  (r, ((answered.2.reloadFreshness p).raiseTake r).settle)

/-- The take of a pocket record: the staging record then equals the values in effect, its touched map is empty, its
last-taken SEQ is the value that caused the take, and the result is reported (R7, R10). -/
def State.takePocketRecord (s : State) (p : Pocket) (seq : Byte) : State :=
  let st := s.path.staging (.pocket p)
  let out := s.blocks.takePocket p st seq
  let staged : Staging :=
    { bytes := restoreStaging (out.2.pocket p).tuning st.bytes, touched := clearTouched st.touched, lastSeq := seq }
  { s with
    blocks := out.2
    path := (s.path.setStaging (.pocket p) staged).setResult (.pocket p) out.1 }

/-! ## The take of the common record (R9, R153, R157, R166) -/

/-- What the common record's fields come to at a take: the four judged fields and the sets. -/
structure CommonJudged where
  enable : Option (BitVec 16)
  ack : Option (BitVec 16)
  supply : Option Nat
  permit : Option Bool
  clearList : Bool
  clamped : BitVec 24
  torn : BitVec 24
  refused : BitVec 24
  deriving DecidableEq, Repr

/-- The judgement of the common fields (R7, R9, R97, R153, R166), with OPT_SUPPLY_MAX and held as they stand. -/
def judgeCommon (supplyMax : Nat) (held permit : Bool) (st : Staging) : CommonJudged :=
  let enableT := touchOf st.touched 1 2
  let ackT := touchOf st.touched 3 2
  let supplyV := stagedValue st.bytes 5 1
  let permitV := stagedValue st.bytes 6 1
  let clearV := stagedValue st.bytes 7 1
  let supplyW := touchOf st.touched 5 1 = .whole
  let permitW := touchOf st.touched 6 1 = .whole
  let clearW := touchOf st.touched 7 1 = .whole
  let permitOk := permitV = 1 ∨ (permitV = 0 ∧ held = false)
  { enable := if enableT = .whole then some (BitVec.ofNat 16 (stagedValue st.bytes 1 2)) else none
    ack := if ackT = .whole then some (BitVec.ofNat 16 (stagedValue st.bytes 3 2)) else none
    supply := if supplyW then some (min supplyV supplyMax) else none
    permit := if permitW then some (if permitOk then permitV == 1 else permit) else none
    clearList := decide (clearW ∧ clearV = 1)
    clamped := if supplyW ∧ supplyMax < supplyV then fieldBit 3 else 0
    torn := (if enableT = .torn then fieldBit 1 else 0) ||| (if ackT = .torn then fieldBit 2 else 0)
    refused := (if permitW ∧ ¬permitOk then fieldBit 4 else 0) ||| (if clearW ∧ 1 < clearV then fieldBit 5 else 0) }

/-- A whole ALERT_ENABLE becomes the enabled set (R153, step 1). -/
def Blocks.setEnabled (b : Blocks) (v : Option (BitVec 16)) : Blocks :=
  match v with
  | some e => { b with alerts := { b.alerts with enabled := e } }
  | none => b

/-- A FAULT_LIST_CLEAR of 1 empties the fault list; the next serial stands (R153, step 2, R157). -/
def Blocks.clearFaults (b : Blocks) (go : Bool) : Blocks :=
  if go then { b with alerts := { b.alerts with faults := [] } } else b

/-- A whole ALERT_ACK is acknowledged (R153, step 3). -/
def Blocks.ackWhole (b : Blocks) (v : Option (BitVec 16)) : Blocks :=
  match v with
  | some causes => b.acknowledge causes
  | none => b

/-- A SUPPLY_LIMIT comes into effect (R97). -/
def Blocks.setSupply (b : Blocks) (v : Option Nat) : Blocks :=
  match v with
  | some n => b.modLoad fun l => { l with supplyLimit := n }
  | none => b

/-- The take of the common record, in the order of R153. -/
def State.takeCommonRecord (s : State) (seq : Byte) : State :=
  let st := s.path.stagingCommon
  let j := judgeCommon (rowSupplyMax s.blocks.working) s.blocks.held s.service.permit st
  let r : TakeResult :=
    { seq := seq, action := .none, clamped := j.clamped, torn := j.torn, refused := j.refused }
  let b := ((((((s.blocks.setEnabled j.enable).clearFaults j.clearList).ackWhole j.ack).setSupply
    j.supply).raiseTake r).settle)
  let permit := j.permit.getD s.service.permit
  let staged : Staging :=
    { bytes := [st.bytes.getD 0 0] ++ toLe 2 b.alerts.enabled.toNat ++ [0, 0] ++
        [BitVec.ofNat 8 b.load.supplyLimit, if permit then 1 else 0, 0]
      touched := clearTouched st.touched
      lastSeq := seq }
  { s with
    blocks := b
    path := { s.path with stagingCommon := staged, resultCommon := r }
    service := { s.service with permit := permit } }

/-- The take of a record (R6). -/
def State.takeRecord (s : State) (r : RecordId) (seq : Byte) : State :=
  match r with
  | .pocket p => s.takePocketRecord p seq
  | .common => s.takeCommonRecord seq

end Sys2Proof.Machine
end

