-- ==== Sys2Proof/Machine/Arbiter.lean ====
section
/-! DEFINITION. Shared operations of the service line unit and the memory-side arbiter: completing and abandoning a command, handing over, starting and cutting a service access, the nonvolatile write (R13 to R15, R161 to R167). -/

namespace Sys2Proof.Machine

/-! ## Completion of a command (R161, R163) -/

/-- The code of a result as an answer byte (R180). -/
def resultByte (r : CommandResult) : Byte := byteOf r.code

/-- The command completes: last result, collided byte count, and its answer from the ready bit on (R161, R163). -/
def ServiceUnit.complete (u : ServiceUnit) (r : CommandResult) (k : Nat) (answer : List Byte) : ServiceUnit :=
  { u with
    lastResult := r
    collided := if r = .collided then k else 0
    answer := some (answer.flatMap bitsOf) }

/-- The answer of a PEEK or a POKE by the arbiter's result (R164): data or 0xFF bytes, or the count stored. -/
def accessAnswer (acc : Access) (r : CommandResult) (k : Nat) (data : List Byte) : List Byte :=
  match acc.kind with
  | .peek => resultByte r :: (if r = .ok then data else List.replicate acc.count 0xFF)
  | .poke => [resultByte r, byteOf k]

/-! ## Service accesses at the arbiter (R13 to R15) -/

/-- The bytes of a service access's memory-side frame: FETCH or STORE code, the address bytes as the tool sent them,
and the POKE bytes that completed (section 1.6, R185). -/
def accessFrame (b : Blocks) (acc : Access) (k : Nat) : List Byte :=
  match acc.kind with
  | .peek => b.fetchCode :: addressBytes acc.addr
  | .poke => b.storeCode :: addressBytes acc.addr ++ acc.data.take k

/-- The access starts on the memory side; a PEEK freezes the snapshot of its first byte's record (R13, R15). -/
def State.startAccess (s : State) (acc : Access) : State :=
  let snaps :=
    match acc.kind with
    | .peek => (readLink s Snapshots.none (startAddress acc.addr)).2
    | .poke => Snapshots.none
  s.modPath fun u => { u with access := some { acc with phase := .inFlight, snaps := snaps } }

/-- An access is handed to the arbiter: it starts at once with select inactive, and waits otherwise (R13). -/
def State.handAccess (s : State) (acc : Access) : State :=
  if s.pins.select then s.modPath fun u => { u with access := some { acc with phase := .waiting 0 } }
  else s.startAccess acc

/-- The access has ended with a result after k bytes: its command completes unless it was abandoned, and an access
that waited for this one to end is handed over (R162, R164). -/
def State.endAccess (s : State) (acc : Access) (r : CommandResult) (k : Nat) (data : List Byte) : State :=
  let s₁ := s.modPath fun u => { u with access := none }
  let s₂ := if acc.owned then s₁.modService fun u => u.complete r k (accessAnswer acc r k data) else s₁
  match s₂.service.heldAccess with
  | some next => (s₂.modService fun u => { u with heldAccess := none }).handAccess next
  | none => s₂

/-- A POKE's first k bytes are stored in the RAM; they are not captured (R14, R15). -/
def State.pokeBytes (s : State) (acc : Access) (k : Nat) : State :=
  match acc.kind with
  | .peek => s
  | .poke => { s with ram := writeRamBytes (startAddress acc.addr) (acc.data.take k) s.ram }

/-- The memory-side frame of the access is what last left for the RAM. -/
def State.noteAccess (s : State) (acc : Access) (k : Nat) : State :=
  { s with link := { s.link with toRam := accessFrame s.blocks acc k, toRamCut := [] } }

/-- An access in flight is cut after k of its bytes, at most all but the last: result COLLIDED (R14). -/
def State.cutAccess (s : State) (acc : Access) (k : Nat) : State :=
  let k := min k (acc.count - 1)
  ((s.pokeBytes acc k).noteAccess acc k).endAccess acc .collided k []

/-- The access runs to its last byte: result OK (R13, R15). -/
def State.finishAccess (s : State) (acc : Access) : State :=
  let data :=
    match acc.kind with
    | .peek => (readLinkBytes s acc.count acc.snaps (startAddress acc.addr)).1
    | .poke => []
  ((s.pokeBytes acc acc.count).noteAccess acc acc.count).endAccess acc .ok acc.count data

/-- How many bytes, at most `most`, had completed when no rule says: a free choice (log entry 4). -/
def Blocks.drawCount (b : Blocks) (most : Nat) : Nat := Config.free b.draws % (most + 1)

/-- The appliance controller asserts select: an access in flight is cut (R14), after the number of bytes given or one
that is free. -/
def State.assertSelect (s : State) (done : Option Nat) : State :=
  let s₁ : State := { s with pins := { s.pins with select := true } }
  match s₁.path.access with
  | some acc =>
    if acc.phase = .inFlight then
      match done with
      | some k => s₁.cutAccess acc k
      | none =>
        (s₁.cutAccess acc (s₁.blocks.drawCount (acc.count - 1))).modBlocks fun b => { b with draws := b.draws + 1 }
    else s₁
  | none => s₁

/-! ## Abandonment (R162) -/

/-- The receiver is in a command: RECEIVING, EXECUTING or ANSWERING. -/
def Receiver.inCommand : Receiver → Bool
  | .receiving | .executing | .answering => true
  | _ => false

/-- The command is abandoned and the receiver goes to another state (R162): TIMEOUT; a waiting access is withdrawn,
one in flight and a nonvolatile write run on without it. -/
def State.abandon (s : State) (next : Receiver) : State :=
  { s with
    service :=
      { s.service with
        receiver := next, command := none, answer := none, bits := [], lastResult := .timeout, collided := 0,
        resetDue := false, driveFor := 0, heldAccess := none, heldOption := none }
    path := { s.path with access := s.path.access.bind keepRunning }
    nvWrite := s.nvWrite.map fun w => { w with owned := false } }
where
  /-- An access in flight runs on, no longer owned; one that waits is withdrawn. -/
  keepRunning (acc : Access) : Option Access :=
    match acc.phase with
    | .inFlight => some { acc with owned := false }
    | .waiting _ => none

/-! ## The option row commands (R167) -/

/-- The n bytes of a row from an offset. -/
def rowSlice (row : List Byte) (off n : Nat) : List Byte := (row.drop off).take n

/-- The row with bytes written from an offset on, in order of rising offset (R167). -/
def writeRow (row : List Byte) (off : Nat) (data : List Byte) : List Byte :=
  row.take off ++ data ++ row.drop (off + data.length)

/-- OPT_READ or OPT_WRITE is carried out (R167). -/
def State.runOption (s : State) (c : OptionCommand) : State :=
  match c with
  | .read off n =>
    if off.toNat + n.toNat ≤ 128 then
      s.modService fun u => u.complete .ok 0 (resultByte .ok :: rowSlice s.storedRow off.toNat n.toNat)
    else s.modService fun u => u.complete .refused 0 (resultByte .refused :: List.replicate n.toNat 0xFF)
  | .write off n data =>
    if s.blocks.held = true ∧ off.toNat + n.toNat ≤ 128 then
      { s with nvWrite := some { off := off.toNat, data := data, owned := true } }
    else
      s.modService fun u => u.complete .refused 0 [resultByte .refused, byteOf s.blocks.optionState.code]

/-- It is carried out now, or when an abandoned nonvolatile write has ended (R162). A command that R167 then refuses, beyond
128 or outside hold, waits as well, where R162 speaks of one executed (DESIGN CHOICE, log entry 40). -/
def State.handOption (s : State) (c : OptionCommand) : State :=
  if s.nvWrite.isSome then s.modService fun u => { u with heldOption := some c } else s.runOption c

end Sys2Proof.Machine
end

