-- ==== Sys2Proof/Machine/Frames.lean ====
section
/-! DEFINITION. Shared operations of the memory path: the classes of frames, the capture of stores, the take decision at a frame's end, the substitution of fetches (R1 to R6, R11, R16, R17). -/

namespace Sys2Proof.Machine

/-! ## Classes of frames (R1) -/

inductive FrameClass where
  | store | fetch | opaqueFrame | short
  deriving DecidableEq, Repr

/-- The class of a frame by its counted bytes (R1). -/
def classifyFrame (b : Blocks) (bytes : List Byte) : FrameClass :=
  match bytes with
  | code :: rest =>
    if code = b.storeCode then (if 3 ≤ rest.length then .store else .short)
    else if code = b.fetchCode then (if 3 ≤ rest.length then .fetch else .short)
    else .opaqueFrame
  | [] => .short

/-- The address that three address bytes carry (R174). -/
def addressOf (bytes : List Byte) : BitVec 24 :=
  (bytes.getD 0 0 ++ bytes.getD 1 0 ++ bytes.getD 2 0)

/-- The path is interpreting, and the frame is not one that was in progress when interpreting began (R16). -/
def State.interprets (s : State) : Bool := s.path.interpreting && !s.path.passThrough

/-- Stores are captured: in VALID, while interpreting (R16, R17). -/
def State.captures (s : State) : Bool := s.interprets && s.blocks.valid

/-! ## Capture (R4, R5) -/

/-- A byte is written into a staging record and its touched map (R4). -/
def Staging.touch (st : Staging) (off : Nat) (v : Byte) : Staging :=
  { st with bytes := st.bytes.set off v, touched := st.touched.set off true }

/-- The last SEQ value written for a record in this frame (R5). -/
def FrameState.kept (f : FrameState) : RecordId → Option Byte
  | .pocket .a => f.seqA
  | .pocket .b => f.seqB
  | .common => f.seqCommon

def FrameState.keep (f : FrameState) (r : RecordId) (v : Byte) : FrameState :=
  match r with
  | .pocket .a => { f with seqA := some v }
  | .pocket .b => { f with seqB := some v }
  | .common => { f with seqCommon := some v }

/-- A counted STORE byte of the demand page examined for capture (R4, R5, R176). -/
def State.captureByte (s : State) (d : DemandByte) (v : Byte) : State :=
  match d with
  | .seq r => s.modPath fun u => { u with frame := u.frame.map fun f => f.keep r v }
  | .keepalive p => s.modBlocks fun b => b.reloadFreshness p
  | .field r off => s.modPath fun u => u.setStaging r ((u.staging r).touch off v)
  | .ordinary => s

/-- A counted data byte of a STORE frame: written to the RAM, examined for capture; the current address moves on
(R2, R4). -/
def State.storeByte (s : State) (addr : BitVec 17) (v : Byte) : State :=
  let s₁ : State := { s with ram := writeRam addr.toNat v s.ram }
  if s₁.captures then
    match pageOffset s₁.blocks.demandBase addr with
    | some off => s₁.captureByte (demandByte off) v
    | none => s₁
  else s₁

def State.storeBytes (s : State) (addr : BitVec 17) : List Byte → State
  | [] => s
  | v :: rest => State.storeBytes (s.storeByte addr v) (addr + 1) rest

/-! ## The take decision (R6) -/

/-- The records a frame end takes: SEQ was written in the frame, and its last value differs from the last-taken
SEQ (R6). -/
def State.dueTakes (s : State) : List (RecordId × Byte) :=
  match s.path.frame with
  | none => []
  | some f =>
    [RecordId.pocket .a, RecordId.pocket .b, RecordId.common].filterMap fun r =>
      match f.kept r with
      | some v => if v ≠ (s.path.staging r).lastSeq then some (r, v) else none
      | none => none

def State.takeAll (s : State) : List (RecordId × Byte) → State
  | [] => s
  | (r, v) :: rest => State.takeAll (s.takeRecord r v) rest

/-- The end of a STORE frame: each record due is taken; which of several is taken first is a free choice (R6, R100,
R153, log entry 4). -/
def State.frameEnd (s : State) : State :=
  let ordered := shuffle 3 s.blocks.draws s.dueTakes
  (s.modBlocks fun b => { b with draws := ordered.2 }).takeAll ordered.1

/-! ## Frames from the appliance controller -/

/-- A frame begins: select is asserted, and the frame's own state is empty (R14, R16). -/
def State.beginFrame (s : State) : State :=
  (s.assertSelect none).modPath fun u =>
    { u with frame := some { seqA := none, seqB := none, seqCommon := none } }

/-- A frame ends: select is released, or active again with the controller's next frame (R13), and kept SEQ values and
snapshots are discarded (R5, R12). -/
def State.endFrame (s : State) (again : Bool) : State :=
  { s with
    pins := { s.pins with select := again }
    path := { s.path with frame := none, passThrough := false } }

/-- What passed on the link. -/
def State.noteLink (s : State) (toRam : List Byte) (toRamCut : List Bool) (toController : List Byte)
    (toControllerCut : List Bool) : State :=
  { s with link :=
    { toRam := toRam, toRamCut := toRamCut, toController := toController, toControllerCut := toControllerCut } }

/-- A STORE frame passes (R4, R6). A data byte cut short is forwarded, neither captured nor counted (R1); what the RAM does
with it the manual does not say: here its byte stays as it was (DESIGN CHOICE, log entry 34). -/
def State.passStore (s : State) (addr : BitVec 24) (data : List Byte) (ends : FrameEnd (List Bool)) : State :=
  let s₁ := s.beginFrame
  let s₂ := s₁.noteLink (s₁.blocks.storeCode :: addressBytes addr ++ data) ends.cut [] []
  let s₃ := s₂.storeBytes (startAddress addr) data
  (if s₃.captures then s₃.frameEnd else s₃).endFrame ends.again

/-- The bytes that a FETCH frame of `n` data bytes returns, and the first bits of the byte cut short (R1, R11, R16, R17).
The manual gives no order for the bits of a byte on the memory link: the most significant comes first, as in the bytes of
the service line (DESIGN CHOICE, log entry 46). -/
def State.fetchAnswer (s : State) (addr : BitVec 24) (n cut : Nat) : List Byte × List Bool :=
  let all :=
    if s.interprets then (readLinkBytes s (n + 1) .none (startAddress addr)).1
    else readRamBytes s.ram (n + 1) (startAddress addr)
  (all.take n, (bitsOf (all.getD n 0)).take cut)

/-- A FETCH frame passes (R11). -/
def State.passFetch (s : State) (addr : BitVec 24) (n : Nat) (ends : FrameEnd Nat) : State :=
  let s₁ := s.beginFrame
  let answer := s₁.fetchAnswer addr n ends.cut
  (s₁.noteLink (s₁.blocks.fetchCode :: addressBytes addr) [] answer.1 answer.2).endFrame ends.again

/-- An opaque or short frame passes both ways and is interpreted as nothing (R1). -/
def State.passOpaque (s : State) (bytes : List Byte) (ends : FrameEnd (List Bool)) (answer : RamAnswer) : State :=
  ((s.beginFrame).noteLink bytes ends.cut answer.bytes answer.cut).endFrame ends.again

/-- A frame given by all its counted bytes, classified by R1. -/
def State.passFrame (s : State) (bytes : List Byte) (ends : FrameEnd (List Bool)) (answer : RamAnswer) : State :=
  match classifyFrame s.blocks bytes with
  | .store => s.passStore (addressOf (bytes.drop 1)) (bytes.drop 4) ends
  | .fetch => s.passFetch (addressOf (bytes.drop 1)) (bytes.length - 4) { cut := ends.cut.length, again := ends.again }
  | .opaqueFrame => s.passOpaque bytes ends answer
  | .short => s.passOpaque bytes ends { bytes := [], cut := [] }

/-- Frames pass in every phase but without supply. -/
def State.whilePowered (s : State) (f : State → State) : State := if s.phase = .off then s else f s

/-- The 24-bit address of a demand page offset. -/
def State.demandAddress (s : State) (off : Nat) : BitVec 24 :=
  (s.blocks.demandBase + BitVec.ofNat 17 off).setWidth 24

/-- One STORE frame that writes a pocket record's SEQ and ACTION bytes, which stand side by side (R175). -/
def State.commitAction (s : State) (p : Pocket) (seq : Byte) (a : Action) : State :=
  s.whilePowered fun s => s.passStore (s.demandAddress (recordOffset (.pocket p))) [seq, a.code] .clean

end Sys2Proof.Machine
end

