-- ==== Sys2Proof/Machine/AlertCommands.lean ====
section
/-! DEFINITION. The commands of the alert controller that travel in the common demand record (chapter 8). -/

namespace Sys2Proof.Machine

/-- ALERT_ACK: one frame stores the two ALERT_ACK bytes, the next the common SEQ byte (R9, R153; log entry 9). -/
def execAlertAck (causes : BitVec 16) (seq : Byte) (s : State) : Answer :=
  .next (s.whilePowered fun s =>
    (s.passStore (s.demandAddress 0x83) (toLe 2 causes.toNat) .clean).passStore (s.demandAddress 0x80) [seq] .clean)

/-- FAULT_LIST_CLEAR: one frame stores its byte, the next the common SEQ byte (R9, R157; log entry 9). -/
def execFaultListClear (value : Byte) (seq : Byte) (s : State) : Answer :=
  .next (s.whilePowered fun s =>
    (s.passStore (s.demandAddress 0x87) [value] .clean).passStore (s.demandAddress 0x80) [seq] .clean)

end Sys2Proof.Machine
end

