-- ==== Sys2Proof/Machine/ContactCommands.lean ====
section
/-! DEFINITION. The contact input unit: debounced changes and their routing, the stop chord (chapter 7). -/

namespace Sys2Proof.Machine

/-- An input's items changed. -/
def Blocks.modInput (b : Blocks) (i : Nat) (f : Input → Input) : Blocks :=
  { b with contacts := { b.contacts with inputs := b.contacts.inputs.set i (f (b.input i)) } }

/-- The chord judged afresh at a change of a CHORD input (R145). -/
def Blocks.chordChanged (b : Blocks) : Blocks :=
  match b.contacts.chord, b.chordActive with
  | .inactive, true => { b with contacts := { b.contacts with chord := .qualifying, chordTimer := 0 } }
  | .qualifying, false | .spent, false =>
    { b with contacts := { b.contacts with chord := .inactive, chordTimer := 0 } }
  | _, _ => b

/-- The cutout opens or closes (R81); an input that settles open goes on holding, and is presented (R140). -/
def Blocks.cutoutChanged (b : Blocks) (p : Pocket) (was now : Level) : Blocks :=
  match now with
  | .active => b.withdrawCause (.highLimit p)
  | _ => if was = .active then (b.present (.highLimit p)).lockoutFault p .highLimit else b.present (.highLimit p)

/-- The belt changes: broken with the motor on is a BELT fault (R68). -/
def Blocks.beltChanged (b : Blocks) (p : Pocket) (now : Level) : Blocks :=
  if now = .inactive ∧ (b.pocket p).drum.motorOn = true then b.drumFault p .belt else b

/-- A change of a debounced level handed to the owner of the input's function (R140, R143). A door or lint filter that
settles open or absent stood so already. -/
def Blocks.handChange (b : Blocks) (f : InputFunction) (was now : Level) : Blocks :=
  match f with
  | .door p => if was = .active ∧ now = .inactive then b.doorOpens p else b
  | .lint p => if was = .active ∧ now = .inactive then b.lintRemoved p else b
  | .hilimit p => b.cutoutChanged p was now
  | .belt p => b.beltChanged p now
  | .chord => b.chordChanged
  | .airflow _ | .tach _ | .unused => b

/-- The contact pin stands at a level (log entry 7). -/
def Pins.setContact (pins : Pins) (i : Nat) (high : Bool) : Pins :=
  { pins with contacts := if high then pins.contacts ||| (1#12 <<< i) else pins.contacts &&& ~~~(1#12 <<< i) }

/-- The debounced level of a logical level. -/
def levelOf (active : Bool) : Level := if active then .active else .inactive

/-- An input has held its pin level for 20.0 ms: a debounced level that differs takes the logical level and the change is
handed on (R139, R140). The command stands for that holding: pin, previous pin and stability timer are those of the last
sample of it, whatever they were before (DESIGN CHOICE, log entry 47). -/
def Blocks.debounce (b : Blocks) (i : Nat) (high : Bool) : Blocks :=
  let was := (b.input i).level
  let now := levelOf (logicalLevel b.working i high)
  let b₁ := b.modInput i fun u => { u with pin := high, previous := high, stability := 200, level := now }
  if was = now then b₁ else (b₁.handChange (actingFunction b.working i) was now).settle

/-- The stability timer of an input can have reached 20.0 ms: 200 samples have followed the first (R139, R140; the first
sample stands 100 µs after step 5, log entry 39). -/
def Blocks.settlingDue (b : Blocks) : Bool := decide (20100 ≤ b.clock)

/-- DEBOUNCED_CHANGE: the sample at which the input's stability timer reaches 20.0 ms, which is no sooner than 20.0 ms
after sampling starts (R138 to R143; log entry 47). -/
def execDebouncedChange (i : Fin 12) (high : Bool) (s : State) : Answer :=
  .next (s.whileRunning fun s =>
    if s.blocks.settlingDue then
      ({ s with pins := s.pins.setContact i high } : State).modBlocks fun b => b.debounce i.val high
    else s)

/-- CHORD_QUALIFY: the chord timer is at or above the threshold in effect in QUALIFYING (R146, R147). -/
def execChordQualify (s : State) : Answer :=
  .next (s.onBlocks fun b =>
    b.when (b.contacts.chord == .qualifying && decide (b.chordThreshold ≤ b.contacts.chordTimer)) fun b =>
      b.panelStop.settle)

end Sys2Proof.Machine
end

