-- ==== Sys2Proof/Machine/DrumCommands.lean ====
section
/-! DEFINITION. The events of the drum drive (chapter 3). -/

namespace Sys2Proof.Machine

/-- The period since the reference in 100 µs units, truncated, kept within 1..65535 (R53). -/
def measuredPeriod (now ref : Nat) : Nat := clampNat 1 65535 ((now - ref) / 100)

/-- The speed of a period, truncated and capped at 255 rpm (R54). -/
def speedOf (period : Nat) : Nat := min 255 (600000 / period)

/-- A qualified pulse at the drum: reference, period and speed, silence timer, stopped-confirmed (R53, R54). R53 says that a
measured period is at most 30000; but MOTOR_RUN going off restarts the silence timer and leaves the reference (R55), so that
up to about 60000 can pass between two pulses: such a period is measured as it is (DEDUCED, log entry 35). -/
def Drum.pulse (now : Nat) (d : Drum) : Drum :=
  let seen := { d with reference := some now, silence := 0, confirmed := false }
  match d.reference with
  | none => seen
  | some ref => { seen with period := measuredPeriod now ref, speed := speedOf (measuredPeriod now ref) }

/-- A pulse that set a speed is judged: against SPEED_LOW in SPINUP, for drag in RUN (R58, R61). -/
def Blocks.judgePulse (b : Blocks) (p : Pocket) : Blocks :=
  let u := b.pocket p
  match u.drum.state with
  | .spinup => if u.tuning.speedLow ≤ u.drum.speed then b.enterRun p else b
  | .run => b.judgeDrag p
  | .stopped | .coast => b

/-- A pulse at a drum drive (R53, R54, R58, R61). -/
def Blocks.pulse (b : Blocks) (p : Pocket) : Blocks :=
  let b₁ := b.modDrum p (Drum.pulse b.clock)
  if (b.pocket p).drum.reference.isSome then b₁.judgePulse p else b₁

/-- 3000 ms of silence (R55). -/
def Blocks.silenceReached (b : Blocks) (p : Pocket) : Blocks :=
  let quiet := fun d : Drum => { d with speed := 0, reference := none, silence := 3000 }
  match (b.pocket p).drum.state with
  | .stopped => (b.modDrum p fun d => { quiet d with confirmed := true }).trySpinUp p
  | .coast => (b.modDrum p fun d => { quiet d with confirmed := true }).judgeCoast p
  | .run => (b.modDrum p quiet).drumFault p .stall
  | .spinup => b.modDrum p quiet

/-- The coast timer reaches 15000 ms: NO_STOP unless the stop has been confirmed (R67). -/
def Blocks.coastLimit (b : Blocks) (p : Pocket) : Blocks :=
  let b₁ := b.modDrum p fun d => { d with coastTimer := 15000 }
  if (b.pocket p).drum.confirmed then b₁.judgeCoast p else b₁.drumFault p .noStop

/-- The pin level at a pulse's sample: the one whose logical level the input's edge setting names (R138, R144). -/
def pulseLevel (row : List Byte) (i : Nat) : Bool := !rowEdgeInactive row i != rowActiveLow row i

/-- A pulse may be found: from the second sample after a reset on, and not within 100 µs of the last pulse (R144; the first
sample stands 100 µs after step 5, log entry 39). -/
def Blocks.pulseDue (b : Blocks) (p : Pocket) : Bool :=
  decide (200 ≤ b.clock) && (b.pocket p).drum.reference.all fun ref => decide (ref + 100 ≤ b.clock)

/-- The sample at which the pulse is found: the pin level has changed to the pulse's (R137, R139, R144). -/
def Blocks.samplePulse (b : Blocks) (i : Nat) (high : Bool) : Blocks :=
  b.modInput i fun u => { u with pin := high, previous := !high, stability := 0 }

/-- TACH_PULSE: a qualified pulse of the input that carries the pocket's TACH function, found at a sample of its pin; with
no such input there is no pulse (R53, R54, R58, R61, R142, R144; log entry 45). -/
def execTachPulse (p : Pocket) (s : State) : Answer :=
  .next (s.whileRunning fun s =>
    match carrier s.blocks.working (.tach p) with
    | some i =>
      if s.blocks.pulseDue p then
        let high := pulseLevel s.blocks.working i
        ({ s with pins := s.pins.setContact i high } : State).modBlocks fun b => ((b.samplePulse i high).pulse p).settle
      else s
    | none => s)

/-- SILENCE_EXPIRY: the tick that takes the silence timer to 3000 ms (R55, R65). -/
def execSilenceExpiry (p : Pocket) (s : State) : Answer :=
  .next (s.onBlocks fun b => b.when ((b.pocket p).drum.silence == 2999) fun b => (b.silenceReached p).settle)

/-- SPINUP_FAIL: the tick that takes the spin-up timer to 10000 ms in SPINUP (R58, R63). -/
def execSpinupFail (p : Pocket) (s : State) : Answer :=
  .next (s.onBlocks fun b =>
    b.when ((b.pocket p).drum.state == .spinup && (b.pocket p).drum.spinTimer == 9999) fun b =>
      ((b.modDrum p fun d => { d with spinTimer := 10000 }).drumFault p .spinupFail).settle)

/-- RUN_END: the run timer is at or above the run length in RUN (R59, R70). -/
def execRunEnd (p : Pocket) (s : State) : Answer :=
  .next (s.onBlocks fun b =>
    b.when ((b.pocket p).drum.state == .run &&
        (match runLength (b.pocket p).tuning (b.pocket p).drum with
          | some len => decide (len * 1000 ≤ (b.pocket p).drum.runTimer)
          | none => false)) fun b => (b.judgeRunEnd p).settle)

/-- COAST_END: in COAST, the coast timer is at or above PAUSE with stopped-confirmed set (R67). -/
def execCoastEnd (p : Pocket) (s : State) : Answer :=
  .next (s.onBlocks fun b =>
    b.when ((b.pocket p).drum.state == .coast && (b.pocket p).drum.confirmed &&
        decide ((b.pocket p).tuning.pause * 1000 ≤ (b.pocket p).drum.coastTimer)) fun b => (b.judgeCoast p).settle)

/-- NO_STOP: the tick that takes the coast timer to 15000 ms in COAST (R63, R67). -/
def execNoStop (p : Pocket) (s : State) : Answer :=
  .next (s.onBlocks fun b =>
    b.when ((b.pocket p).drum.state == .coast && (b.pocket p).drum.coastTimer == 14999) fun b =>
      (b.coastLimit p).settle)

end Sys2Proof.Machine
end

