-- ==== Sys2Proof/Machine/DrynessCommands.lean ====
section
/-! DEFINITION. The dryness unit: gated samples, window completion, the wetness index, dry detection and its extension (chapter 6). -/

namespace Sys2Proof.Machine

/-- The window value X: 256 × hits, saturated at 65535 (R124). -/
def windowValue (hits : Nat) : Nat := min 65535 (256 * hits)

/-- The wetness index after a completion: W plus (X − W) × α / 64 truncated toward zero (R124). -/
def nextWetness (alpha hits w : Nat) : Nat :=
  ((w : Int) + (((windowValue hits : Int) - (w : Int)) * (alpha : Int)).tdiv 64).toNat

/-- The dry streak after a completion (R127). -/
def nextStreak (windows w target streak : Nat) : Nat :=
  if windows < 8 then 0 else if w ≤ target then satSucc 15 streak else 0

/-- A window completes with its hits (R122, steps 1 to 5). -/
def Dryness.complete (t : Tuning) (hits : Nat) (d : Dryness) : Dryness :=
  let w := nextWetness t.filterWeight hits d.wetness
  let windows := satSucc 65535 d.windows
  { d with lastHits := hits, gated := 0, hits := 0, wetness := w, windows := windows,
           streak := nextStreak windows w t.dryTarget d.streak }

/-- The extension E = min(floor(Th × MARGIN / 256), 1800) (R129). -/
def extensionOf (th margin : Nat) : Nat := min (th * margin / 256) 1800

/-- The 256th gated sample: the window completes and detection is judged (R122, R128). -/
def Blocks.completeWindow (b : Blocks) (p : Pocket) (hits : Nat) : Blocks :=
  let b₁ := b.modPocket p fun u => { u with dryness := u.dryness.complete u.tuning hits }
  let u := b₁.pocket p
  if u.tuning.confirm ≤ u.dryness.streak then b₁.dryReport p (extensionOf u.cycle.th u.tuning.margin) else b₁

/-- A gated sample is judged and counted (R121). -/
def Blocks.gatedSample (b : Blocks) (p : Pocket) (v : Nat) : Blocks :=
  let u := b.pocket p
  let hit := if u.tuning.wetLevel ≤ v then 1 else 0
  if u.dryness.gated < 255 then
    b.modDryness p fun d => { d with gated := d.gated + 1, hits := d.hits + hit }
  else b.completeWindow p (u.dryness.hits + hit)

/-- An electrode sample (R117). -/
def Blocks.electrode (b : Blocks) (p : Pocket) (v : Nat) : Blocks :=
  let b₁ := b.modDryness p fun d => { d with lastSample := v }
  if (b.pocket p).dryness.gateOpen then (b₁.gatedSample p v).settle else b₁

/-- The electrode input stands at the sampled level (log entry 7). -/
def Pins.setElectrode (pins : Pins) (p : Pocket) (v : BitVec 10) : Pins :=
  match p with
  | .a => { pins with electrodeA := v }
  | .b => { pins with electrodeB := v }

/-- ELECTRODE_SAMPLE (R117, R121 to R129). -/
def execElectrodeSample (p : Pocket) (value : BitVec 10) (s : State) : Answer :=
  .next (s.whileRunning fun s =>
    ({ s with pins := s.pins.setElectrode p value } : State).modBlocks fun b => b.electrode p value.toNat)

end Sys2Proof.Machine
end

