-- ==== Sys2Proof/Machine/MemoryPath.lean ====
section
/-! DEFINITION. The commands of the memory path: frames, the KEEPALIVE store, the events of the memory-side arbiter (chapter 1). -/

namespace Sys2Proof.Machine

/-- STORE_FRAME (R1, R2, R4 to R10, R14, R16, R17). -/
def execStoreFrame (addr : BitVec 24) (data : List Byte) (ends : FrameEnd (List Bool)) (s : State) : Answer :=
  .next (s.whilePowered fun s => s.passStore addr data ends)

/-- KEEPALIVE: a frame that stores one byte to the pocket record's KEEPALIVE byte (R5, R45). -/
def execKeepalive (p : Pocket) (value : Byte) (s : State) : Answer :=
  .next (s.whilePowered fun s => s.passStore (s.demandAddress (recordOffset (.pocket p) + 0x02)) [value] .clean)

/-- FETCH_FRAME (R1, R2, R11, R12, R14, R16, R17). -/
def execFetchFrame (addr : BitVec 24) (count : Nat) (ends : FrameEnd Nat) (s : State) : Answer :=
  .next (s.whilePowered fun s => s.passFetch addr count ends)

/-- OPAQUE_FRAME: forwarded whole in both directions, to the last bit (R1). The bytes are classified as the part classifies
them, so bytes with the FETCH or STORE code are no opaque frame. -/
def execOpaqueFrame (bytes : List Byte) (ends : FrameEnd (List Bool)) (answer : RamAnswer) (s : State) : Answer :=
  .next (s.whilePowered fun s => s.passFrame bytes ends answer)

/-- SHORT_FRAME: forwarded as far as it went (R1). -/
def execShortFrame (bytes : List Byte) (ends : FrameEnd (List Bool)) (s : State) : Answer :=
  .next (s.whilePowered fun s => s.passOpaque bytes ends { bytes := [], cut := [] })

/-- SERVICE_ACCESS_START: a waiting access starts when select is inactive (R13). -/
def execServiceAccessStart (s : State) : Answer :=
  .next (s.whileRunning fun s =>
    match s.path.access with
    | some acc => if acc.phase ≠ .inFlight ∧ s.pins.select = false then s.startAccess acc else s
    | none => s)

/-- SERVICE_ACCESS_COMPLETE: the access in flight runs to its last byte with result OK (R13, R15, R164). -/
def execServiceAccessComplete (s : State) : Answer :=
  .next (s.whileRunning fun s =>
    match s.path.access with
    | some acc => if acc.phase = .inFlight then s.finishAccess acc else s
    | none => s)

/-- LINK_BUSY: the 10 ms of an access that waits expire with select still active; it is abandoned without having run
(R13, R164). With select inactive the access is not given up: it starts. -/
def execLinkBusy (s : State) : Answer :=
  .next (s.whileRunning fun s =>
    match s.path.access with
    | some acc => if acc.phase = .waiting 9999 ∧ s.pins.select = true then s.endAccess acc .linkBusy 0 [] else s
    | none => s)

/-- SERVICE_ACCESS_COLLIDED: the access in flight is cut after `done` bytes, and the controller's frame passes whole
(R14). -/
def execServiceAccessCollided (done : Nat) (bytes : List Byte) (ends : FrameEnd (List Bool)) (answer : RamAnswer)
    (s : State) : Answer :=
  .next (s.whilePowered fun s => (s.assertSelect (some done)).passFrame bytes ends answer)

end Sys2Proof.Machine
end

