-- ==== Sys2Proof/Machine/PocketCycle.lean ====
section
/-! DEFINITION. The commands of the pocket cycle: the six actions, each a STORE frame that commits it, and the timed events of a pocket (chapter 2). -/

namespace Sys2Proof.Machine

/-- START (R8, R22). -/
def execStart (p : Pocket) (seq : Byte) (s : State) : Answer := .next (s.commitAction p seq .start)

/-- PAUSE (R8, R23). -/
def execPause (p : Pocket) (seq : Byte) (s : State) : Answer := .next (s.commitAction p seq .pause)

/-- RESUME (R8, R24). -/
def execResume (p : Pocket) (seq : Byte) (s : State) : Answer := .next (s.commitAction p seq .resume)

/-- ADVANCE (R8, R25). -/
def execAdvance (p : Pocket) (seq : Byte) (s : State) : Answer := .next (s.commitAction p seq .advance)

/-- ABORT (R8, R26). -/
def execAbort (p : Pocket) (seq : Byte) (s : State) : Answer := .next (s.commitAction p seq .abort)

/-- CLEAR (R8, R27). -/
def execClear (p : Pocket) (seq : Byte) (s : State) : Answer := .next (s.commitAction p seq .clear)

/-- TIME_LIMIT_REACHED: elapsed drying seconds are at or above TIME_LIMIT × 60 in DRYING or EXTENDING (R31). -/
def execTimeLimitReached (p : Pocket) (s : State) : Answer :=
  .next (s.onBlocks fun b =>
    b.when ((b.pocket p).cycle.state.heating && (b.pocket p).limitReached) fun b => (b.judgeTimeLimit p).settle)

/-- EXTENSION_END: extension remaining has reached 0 in EXTENDING (R33). -/
def execExtensionEnd (p : Pocket) (s : State) : Answer :=
  .next (s.onBlocks fun b =>
    b.when ((b.pocket p).cycle.state == .extending && (b.pocket p).cycle.extension == 0) fun b =>
      (b.enterCooling p (some .confirmedDry)).settle)

/-- COOL_TIME_EXPIRY: cool elapsed seconds are at or above COOL_TIME × 60 in COOLING (R35). -/
def execCoolTimeExpiry (p : Pocket) (s : State) : Answer :=
  .next (s.onBlocks fun b =>
    b.when ((b.pocket p).cycle.state == .cooling &&
        decide ((b.pocket p).tuning.coolTime * 60 ≤ (b.pocket p).cycle.cool)) fun b => (b.coolEnd p).settle)

/-- CREASE_BURST: the crease timer has reached 300 s in CREASE_GUARD, and the guard goes on (R37). -/
def execCreaseBurst (p : Pocket) (s : State) : Answer :=
  .next (s.onBlocks fun b =>
    b.when ((b.pocket p).cycle.state == .creaseGuard && decide (300 ≤ (b.pocket p).cycle.creaseTimer) &&
        decide ((b.pocket p).cycle.creaseElapsed < 7200)) fun b =>
      ((b.modCycle p fun c => { c with creaseTimer := 0 }).burstRequest p).settle)

/-- CREASE_GUARD_END: crease elapsed has reached 7200 s (R38). -/
def execCreaseGuardEnd (p : Pocket) (s : State) : Answer :=
  .next (s.onBlocks fun b =>
    b.when ((b.pocket p).cycle.state == .creaseGuard && decide (7200 ≤ (b.pocket p).cycle.creaseElapsed)) fun b =>
      (b.enterDone p).settle)

/-- FRESHNESS_EXPIRY: the tick that takes freshness remaining to 0 in a counting state; STALE is raised and answered
as a lockout fault (R45). -/
def execFreshnessExpiry (p : Pocket) (s : State) : Answer :=
  .next (s.onBlocks fun b =>
    b.when ((b.pocket p).cycle.state.countsFreshness && (b.pocket p).cycle.freshness == 1) fun b =>
      ((((b.modCycle p fun c => { c with freshness := 0 }).raiseCause (.stale p)).lockoutFault p .stale)).settle)

end Sys2Proof.Machine
end

