-- ==== Sys2Proof/WellFormed.lean ====
section
/-! DEFINITION. Which commands can be sent at all: the checks on operands that no state enters. -/

namespace Sys2Proof

/-- The bits of a byte cut short by the release of select: fewer than eight (R1). -/
def cutOk (cut : List Bool) : Bool := decide (cut.length < 8)

/-- A count byte of PEEK, POKE, OPT_READ or OPT_WRITE that brings data (R161): 1..16. -/
def countInRange (n : Byte) : Bool := decide (1 ≤ n.toNat ∧ n.toNat ≤ 16)

/-- The data bytes that follow a count byte: n of them when n is 1..16, otherwise reception ended at n (R161). -/
def dataFits (n : Byte) (data : List Byte) : Bool :=
  if countInRange n then data.length == n.toNat else data.isEmpty

/-- A code of the command table of R184. -/
def knownCode (code : Byte) : Bool := decide (1 ≤ code.toNat ∧ code.toNat ≤ 9)

/-- The command's operands are ones its rule allows. -/
def Instr.wellFormed : Instr → Bool
  | .storeFrame _ _ ends => cutOk ends.cut
  | .fetchFrame _ _ ends => decide (ends.cut < 8)
  | .opaqueFrame bytes ends answer => !bytes.isEmpty && cutOk ends.cut && cutOk answer.cut
  | .shortFrame bytes ends => decide (bytes.length < 4) && cutOk ends.cut
  | .serviceAccessCollided done _ ends answer => decide (done ≤ 15) && cutOk ends.cut && cutOk answer.cut
  | .unknownCommand code => !knownCode code
  | .poke _ n data => dataFits n data
  | .optWrite _ n data => dataFits n data
  | .keepalive .. | .start .. | .pause .. | .resume .. | .advance .. | .abort .. | .clear .. => true
  | .alertAck .. | .faultListClear .. | .serviceAccessStart | .serviceAccessComplete | .linkBusy => true
  | .powerOnReset | .powerFail | .pinReset | .resetRelease | .serviceReset | .startUpWaitEnd => true
  | .timeLimitReached _ | .extensionEnd _ | .coolTimeExpiry _ | .creaseBurst _ | .creaseGuardEnd _ => true
  | .freshnessExpiry _ | .tachPulse _ | .silenceExpiry _ | .spinupFail _ | .runEnd _ | .coastEnd _ => true
  | .noStop _ | .temperatureSample .. | .dwellEnd _ | .startAllowanceEnd _ | .pacingTimerExpiry => true
  | .notBeforeExpiry _ | .zeroCrossing _ | .mainsLost | .electrodeSample .. | .debouncedChange .. => true
  | .chordQualify | .sync | .syncReply | .lineError | .gapTimeout | .status | .peek .. | .hold => true
  | .release | .optRead .. | .optWriteComplete | .forceAlert _ | .resetPart | .partToToolSlot => true

end Sys2Proof
end

