-- ==== Sys2Proof/Machine/ServiceLine.lean ====
section
/-! DEFINITION. The commands and events of the service line unit: SYNC, line errors, the gap, the nine service commands, the answer slots, service hold (chapter 9, R46, R47). -/

namespace Sys2Proof.Machine

/-! ## Reception (R159, R161) -/

/-- The unit takes a command whole in READY, unless a RESET_PART's reset is due (R168), or at the last bit of its last
byte in RECEIVING (R161). -/
def ServiceUnit.accepts (u : ServiceUnit) (bytes : List Byte) : Bool :=
  match u.receiver with
  | .ready => !u.resetDue
  | .receiving => u.command == some bytes
  | _ => false

/-- The command's last bit is counted at cycle 12 of its slot and EXECUTING is entered (R159, R161). -/
def ServiceUnit.beginCommand (u : ServiceUnit) (bytes : List Byte) : ServiceUnit :=
  { u with
    receiver := .executing, slotTimer := 12, gapTimer := 12, command := some bytes, answer := none, bits := [],
    lowFromReady := false, sentBit := none }

/-- A service command is executed if the unit takes it. -/
def State.execute (s : State) (bytes : List Byte) (f : State → State) : State :=
  s.whileRunning fun s =>
    if s.service.accepts bytes then f (s.modService fun u => u.beginCommand bytes) else s

/-- The command completes with a result and its answer bytes, in the event of its last bit. -/
def State.completeCommand (s : State) (r : CommandResult) (answer : List Byte) : State :=
  s.modService fun u => u.complete r 0 answer

/-- The bytes of each command, its code first (R184). -/
def statusBytes : List Byte := [1]

def peekBytes (addr : BitVec 24) (n : Byte) : List Byte := 2 :: addressBytes addr ++ [n]

def pokeBytesOf (addr : BitVec 24) (n : Byte) (data : List Byte) : List Byte := 3 :: addressBytes addr ++ n :: data

def holdBytes : List Byte := [4]

def releaseBytes : List Byte := [5]

def optReadBytes (off n : Byte) : List Byte := [6, off, n]

def optWriteBytes (off n : Byte) (data : List Byte) : List Byte := 7 :: off :: n :: data

def forceAlertBytes (causes : BitVec 16) : List Byte := 8 :: toLe 2 causes.toNat

def resetPartBytes : List Byte := [9]

/-! ## Service accesses (R164) -/

/-- An access goes to the arbiter, or waits for an abandoned one that still runs (R162). -/
def State.submitAccess (s : State) (acc : Access) : State :=
  if s.path.access.isSome then s.modService fun u => { u with heldAccess := some acc } else s.handAccess acc

/-- A new access of a command. -/
def newAccess (kind : AccessKind) (addr : BitVec 24) (n : Byte) (data : List Byte) : Access :=
  { kind := kind, addr := addr, count := n.toNat, data := data, phase := .waiting 0, owned := true, snaps := .none }

/-! ## Service hold (R46, R47, R165) -/

/-- The context at entry to HELD (R46). -/
def Cycle.enterHeld (c : Cycle) : Cycle :=
  { c with
    state := .held
    holdFrom := some c.state
    resume := if c.state.isActive then c.resumeState else c.resume
    startTarget := if c.state.isActive then none else c.startTarget }

/-- A pocket goes to HELD with a stop request (R46). -/
def Blocks.holdPocket (b : Blocks) (p : Pocket) : Blocks := (b.modCycle p Cycle.enterHeld).stopDrum p

/-- The state a hold-from state gives at release (R47). -/
def stateAfterHold : Option CycleState → CycleState
  | some .starting | some .drying | some .extending | some .cooling | some .paused => .paused
  | some .creaseGuard | some .done => .done
  | some .faulted => .faulted
  | some .idle | some .held | none => .idle

/-- A pocket that lands in PAUSED or DONE answers the conditions that hold (R47). -/
def Blocks.landFromHold (b : Blocks) (p : Pocket) : Blocks :=
  match (b.pocket p).cycle.state with
  | .paused => if (b.pocket p).cycle.lockout.isSome then b.goFaulted p else b.entryLockout p
  | .done => if b.doorClosed p then b else b.enterIdle p
  | _ => b

/-- A pocket leaves HELD, its freshness reloaded (R47; in OPTION_FAULT log entry 48). -/
def Blocks.releasePocket (b : Blocks) (p : Pocket) : Blocks :=
  let c := (b.pocket p).cycle
  if c.state = .held then
    let b₁ := b.modCycle p fun c =>
      { c with state := stateAfterHold c.holdFrom, holdFrom := none, freshness := b.freshSeconds }
    let b₂ := if c.holdFrom = some .creaseGuard then b₁.raiseCause (.done p) else b₁
    b₂.landFromHold p
  else b

/-- A pocket's stage at entry to hold: one that is OFF enters DWELL with its timer at 0, one in DWELL stays, and one that
is QUEUED or ON is withdrawn to DWELL when the event settles (R83, R114; log entry 15). -/
def StageUnit.enterHeld (u : StageUnit) : StageUnit :=
  if u.state = .off then { u with state := .dwell, dwell := 0, ended := false } else { u with ended := false }

/-- At entry to hold both stages of a pocket go to DWELL (R83, R114); in OPTION_FAULT the stages stay OFF (R94). -/
def Blocks.holdStages (b : Blocks) (p : Pocket) : Blocks :=
  if b.valid then b.modPocket p fun u => { u with stage1 := u.stage1.enterHeld, stage2 := u.stage2.enterHeld } else b

/-- Entry to service hold (R165). -/
def Blocks.enterHold (b : Blocks) : Blocks :=
  ((((((({ b with held := true } : Blocks).holdPocket .a).holdPocket .b).holdStages .a).holdStages .b).raiseCause
    .service).settle)

/-- Release from service hold (R165): a drum that RUN or BURST is held for may spin up again (R57). -/
def Blocks.leaveHold (b : Blocks) : Blocks :=
  ((((((({ b with held := false } : Blocks).releasePocket .a).releasePocket .b).trySpinUp .a).trySpinUp .b).raiseCause
    .service).settle)

/-! ## The nine commands and the unknown code -/

/-- UNKNOWN_COMMAND: one byte, REFUSED (R161, R163, R185). A code of the table is no unknown one. -/
def execUnknownCommand (code : Byte) (s : State) : Answer :=
  .next (if knownCode code then s else
    s.execute [code] fun s => s.completeCommand .refused [resultByte .refused])

/-- STATUS: it reports as things stand and changes no result (R163, R184). -/
def execStatus (s : State) : Answer :=
  .next (s.execute statusBytes fun s =>
    let flag := fun b : Bool => if b then (1 : Byte) else 0
    let answer : List Byte :=
      [flag s.blocks.held, flag s.service.permit, byteOf s.blocks.optionState.code, resultByte s.service.lastResult,
       byteOf s.service.collided]
    s.modService fun u => { u with answer := some (answer.flatMap bitsOf) })

/-- The link as a service access finds it: busy, the appliance controller has asserted select and its frame is still to
come (log entry 42); otherwise as it stands. -/
def State.meetLink (s : State) (busy : Bool) : State := if busy then s.assertSelect none else s

/-- PEEK (R161, R164). -/
def execPeek (target : AccessTarget) (n : Byte) (s : State) : Answer :=
  .next (s.execute (peekBytes target.addr n) fun s =>
    let s := s.meetLink target.busy
    if countInRange n then s.submitAccess (newAccess .peek target.addr n [])
    else s.completeCommand .refused [resultByte .refused])

/-- POKE: refused outside hold (R161, R164). Data that do not fit the count are no command. -/
def execPoke (target : AccessTarget) (n : Byte) (data : List Byte) (s : State) : Answer :=
  .next (if dataFits n data then
    s.execute (pokeBytesOf target.addr n data) fun s =>
      let s := s.meetLink target.busy
      if countInRange n && s.blocks.held then s.submitAccess (newAccess .poke target.addr n data)
      else s.completeCommand .refused [resultByte .refused, 0]
  else s)

/-- HOLD (R165). -/
def execHold (s : State) : Answer :=
  .next (s.execute holdBytes fun s =>
    if s.blocks.held then s.completeCommand .ok [resultByte .ok]
    else if s.service.permit || !s.blocks.valid then
      (s.modBlocks Blocks.enterHold).completeCommand .ok [resultByte .ok]
    else s.completeCommand .refused [resultByte .refused])

/-- RELEASE (R165). -/
def execRelease (s : State) : Answer :=
  .next (s.execute releaseBytes fun s =>
    if s.blocks.held then (s.modBlocks Blocks.leaveHold).completeCommand .ok [resultByte .ok]
    else s.completeCommand .refused [resultByte .refused])

/-- OPT_READ (R161, R167). -/
def execOptRead (off n : Byte) (s : State) : Answer :=
  .next (s.execute (optReadBytes off n) fun s =>
    if countInRange n then s.handOption (.read off n) else s.completeCommand .refused [resultByte .refused])

/-- OPT_WRITE (R161, R167). Data that do not fit the count are no command. -/
def execOptWrite (off n : Byte) (data : List Byte) (s : State) : Answer :=
  .next (if dataFits n data then
    s.execute (optWriteBytes off n data) fun s =>
      if countInRange n then s.handOption (.write off n data)
      else s.completeCommand .refused [resultByte .refused, 0]
  else s)

/-- The command of a nonvolatile write completes, unless it was abandoned: OK and the check of the stored row
(R167). -/
def State.answerWrite (s : State) (w : NvWrite) : State :=
  if w.owned then s.completeCommand .ok [resultByte .ok, byteOf (checkRow s.storedRow).code] else s

/-- A command that waited for the nonvolatile write to end is carried out (R162). -/
def State.runHeldOption (s : State) : State :=
  match s.service.heldOption with
  | some c => (s.modService fun u => { u with heldOption := none }).runOption c
  | none => s

/-- OPT_WRITE_COMPLETE: the last byte of the nonvolatile write has been written (R167). -/
def execOptWriteComplete (s : State) : Answer :=
  .next (s.whileRunning fun s =>
    match s.nvWrite with
    | some w =>
      ((({ s with storedRow := writeRow s.storedRow w.off w.data, nvWrite := none } : State).answerWrite
        w).runHeldOption)
    | none => s)

/-- FORCE_ALERT (R154, R168). -/
def execForceAlert (causes : BitVec 16) (s : State) : Answer :=
  .next (s.execute (forceAlertBytes causes) fun s =>
    (s.modBlocks fun b => { b with alerts := { b.alerts with forced := b.alerts.forced ||| causes } }).completeCommand
      .ok [resultByte .ok])

/-- RESET_PART: answered OK; the reset follows the last slot of the answer (R168). -/
def execResetPart (s : State) : Answer :=
  .next (s.execute resetPartBytes fun s => s.completeCommand .ok [resultByte .ok])

/-! ## Slots, SYNC and the ways a command is abandoned -/

/-- SYNC: the release of a low of 200 cycles or more, in every state but SYNC_REPLY (R160). It abandons nothing where its
low is judged as begun in READY (R159), also where another low began the slot (DEDUCED, log entry 51). -/
def execSync (s : State) : Answer :=
  .next (s.whileRunning fun s =>
    if s.service.receiver = .syncReply then s
    else
      let s₁ := if s.service.receiver.inCommand && !s.service.lowFromReady then s.abandon .syncReply else s
      s₁.modService fun u =>
        { u with receiver := .syncReply, command := none, answer := none, bits := [], replyTimer := 0 })

/-- SYNC_REPLY: 16 cycles after the release and 96 cycles low have passed; READY with the slot timer at 32 (R160). -/
def execSyncReply (s : State) : Answer :=
  .next (s.whileRunning fun s =>
    if s.service.receiver = .syncReply ∧ s.service.replyTimer = 111 then
      s.modService fun u => { u with receiver := .ready, slotTimer := 32, replyTimer := 112 }
    else s)

/-- LINE_ERROR: a low that lasted past cycle 32 and less than 200 cycles; any low of the first slot of a command code is
judged as begun in READY (R159). -/
def execLineError (s : State) : Answer :=
  .next (s.whileRunning fun s =>
    if s.service.receiver = .ready ∨ (s.service.receiver = .receiving ∧ s.service.lowFromReady = true) then
      s.modService fun u => { u with receiver := .awaitSync, command := none, bits := [] }
    else if s.service.receiver.inCommand then s.abandon .awaitSync
    else s)

/-- GAP_TIMEOUT: the gap timer passes 1024 cycles in a command (R162). A SYNC's low that began in READY is the first slot of
a command code, in RECEIVING, until its release; one of more than 1024 cycles finds the gap first, and the last result is
TIMEOUT, where R160 leaves the last result as it stands (DEDUCED, log entry 41). -/
def execGapTimeout (s : State) : Answer :=
  .next (s.whileRunning fun s =>
    if s.service.receiver.inCommand = true ∧ s.service.gapTimer = 1024 then
      (s.modService fun u => { u with gapTimer := 1025 }).abandon .awaitSync
    else s)

/-- A falling edge starts a slot in the states that start one by themselves; an answer slot is an event. -/
def ServiceUnit.startSlot (u : ServiceUnit) : ServiceUnit :=
  match u.receiver with
  | .ready => { u with receiver := .receiving, command := none, bits := [], slotTimer := 0, gapTimer := 0 }
  | .receiving | .awaitSync => { u with slotTimer := 0, gapTimer := 0 }
  | .executing | .answering | .syncReply => u

/-- A part-to-tool slot begins and carries a bit: in EXECUTING 0, or 1 once the command has completed; in ANSWERING the
next answer bit (R159, R161). The receiver's state changes at the slot's end. An edge that finds AWAIT_SYNC, the gap having
abandoned the command on the same cycle, starts a slot there that carries nothing (R159, R162; log entry 49). -/
def ServiceUnit.sendSlot (u : ServiceUnit) : ServiceUnit :=
  let carry := fun bit : Bool =>
    { u with slotTimer := 0, gapTimer := 0, sentBit := some bit, driveFor := if bit then 0 else 20 }
  match u.receiver, u.answer with
  | .executing, answer => carry answer.isSome
  | .answering, some (bit :: rest) => { carry bit with answer := some rest }
  | .awaitSync, _ => u.startSlot
  | _, _ => u

/-- The end of a slot, its cycle 32: ANSWERING after the slot that read 1, READY after the last slot of the answer, a
RESET_PART's reset then being due (R161, R168). -/
def ServiceUnit.endSlot (u : ServiceUnit) : ServiceUnit :=
  match u.receiver, u.answer with
  | .executing, _ => if u.sentBit = some true then { u with receiver := .answering } else u
  | .answering, some (_ :: _) => u
  | .answering, _ =>
    { u with receiver := .ready, command := none, answer := none, resetDue := u.command == some resetPartBytes }
  | _, _ => u

/-- PART_TO_TOOL_SLOT: a falling edge with the slot timer at 32 in EXECUTING or ANSWERING (R159, R161), or
in AWAIT_SYNC after a gap of the same cycle. -/
def execPartToToolSlot (s : State) : Answer :=
  .next (s.whileRunning fun s =>
    if s.service.slotTimer = 32 then s.modService ServiceUnit.sendSlot else s)

end Sys2Proof.Machine
end

