-- ==== Sys2Proof/Machine/StartUp.lean ====
section
/-! DEFINITION. Power, resets and the start-up sequence (chapter 10, R172 and R173). -/

namespace Sys2Proof.Machine

/-- A service access in flight is cut where it stands: how many of a POKE's bytes had completed is free, and they
stay stored (R16, R172 step 1; log entry 4). -/
def State.cutAccessForReset (s : State) : State :=
  match s.path.access with
  | some acc =>
    if acc.phase = .inFlight then
      let k := s.blocks.drawCount (acc.count - 1)
      ((s.pokeBytes acc k).noteAccess acc k).modBlocks fun b => { b with draws := b.draws + 1 }
    else s
  | none => s

/-- A nonvolatile write is cut: the bytes of lower offset are written and the rest as they were (R167); how many is
free (log entry 4). -/
def State.cutWriteForReset (s : State) : State :=
  match s.nvWrite with
  | some w =>
    { s with
      storedRow := writeRow s.storedRow w.off (w.data.take (s.blocks.drawCount w.data.length))
      nvWrite := none
      blocks := { s.blocks with draws := s.blocks.draws + 1 } }
  | none => s

/-- The controller with its sets empty and nothing presented, its fault list and next serial kept (R151). They stand over
a loss of supply too, and a PIN reset that abandons the POWER_ON reset's start-up wait before step 5 makes them readable,
where the manual says nothing of a list that has lost its supply (DESIGN CHOICE, log entry 50). -/
def Alerts.emptied (a : Alerts) : Alerts := { Alerts.reset with faults := a.faults, nextSerial := a.nextSerial }

/-- The drums and the outputs in step 2 of the start-up sequence: MOTOR_RUN off and DIR FWD (R52, R172). The alert sets
are empty until step 5 gives them their reset values (R151); the fault list and next serial stand, after a loss of supply
too (DESIGN CHOICE, log entry 50). -/
def Blocks.deEnergise (b : Blocks) : Blocks :=
  let b₁ := ((b.modDrum .a fun _ => Drum.reset).modDrum .b fun _ => Drum.reset).modLoad fun l => l.switchOutputs []
  { b₁ with alerts := b₁.alerts.emptied }

/-- Steps 1 and 2, which every reset and a supply that falls begin with (R172, R173): the path is transparent, what
was in flight is cut, the outputs are off, the alert sets are empty, the service line answers nothing. -/
def State.beginReset (s : State) (next : Phase) : State :=
  let s₁ := s.cutAccessForReset.cutWriteForReset
  { s₁ with
    phase := next
    blocks := s₁.blocks.deEnergise
    path := { s₁.path with interpreting := false, passThrough := false, frame := none, access := none }
    service := .reset }

/-- POWER_ON_RESET: the supply rises to its working level (R173). -/
def execPowerOnReset (s : State) : Answer := .next (s.beginReset (.startUpWait .powerOn 0))

/-- POWER_FAIL: the supply falls; everything ends (R173). -/
def execPowerFail (s : State) : Answer := .next (s.beginReset .off)

/-- PIN_RESET: the RESET input is asserted; steps 1 and 2 stand (R173). -/
def execPinReset (s : State) : Answer :=
  .next (if s.phase = .off then s
    else { s.beginReset .pinHeld with pins := { s.pins with resetInput := true } })

/-- RESET_RELEASE: the start-up wait of the PIN reset begins (R173). -/
def execResetRelease (s : State) : Answer :=
  .next (if s.phase = .pinHeld then
    { s with phase := .startUpWait .pin 0, pins := { s.pins with resetInput := false } }
  else s)

/-- SERVICE_RESET: the last slot of RESET_PART's answer ends (R168, R173). -/
def execServiceReset (s : State) : Answer :=
  .next (s.whileRunning fun s =>
    if s.service.resetDue = true then s.beginReset (.startUpWait .service 0) else s)

/-- The fault list and next serial: emptied and 0 at a POWER_ON reset, kept as they stood at the others (R173). -/
def Alerts.afterReset (a : Alerts) (k : ResetKind) : Alerts :=
  match k with
  | .powerOn => .reset
  | .pin | .service => a.emptied

/-- A cutout function that no input carries stands open, and HIGH_LIMIT is presented from that moment (R81, R142). -/
def Blocks.presentUnmapped (b : Blocks) (p : Pocket) : Blocks :=
  if (carrier b.working (.hilimit p)).isNone then b.present (.highLimit p) else b

/-- Steps 4 and 5 for the blocks: the stored row is loaded and checked, and every block takes its reset values
(R169, R170, R172). -/
def Blocks.afterReset (b : Blocks) (row : List Byte) (k : ResetKind) : Blocks :=
  ((({ working := row
       optionState := checkRow row
       held := false
       clock := 0
       draws := b.draws
       pocketA := .reset
       pocketB := .reset
       inlet := .reset
       load := .reset (rowSupplyMax row)
       contacts := .reset
       alerts := b.alerts.afterReset k } : Blocks).presentUnmapped .a).presentUnmapped .b)

/-- Steps 4 to 6: load, reset values, interpreting begins; a frame in progress passes transparently to its end (R16,
R172). -/
def State.startUp (s : State) (k : ResetKind) : State :=
  { s with
    phase := .running
    resetKind := k
    blocks := s.blocks.afterReset s.storedRow k
    path := { PathUnit.reset (rowSupplyMax s.storedRow) with interpreting := true, passThrough := s.pins.select }
    service := .reset }

/-- START_UP_WAIT_END: the start-up wait of 64 ms has run (R172). -/
def execStartUpWaitEnd (s : State) : Answer :=
  .next (match s.phase with
    | .startUpWait k 63999 => s.startUp k
    | _ => s)

end Sys2Proof.Machine
end

