-- ==== Sys2Proof/Machine/Supply.lean ====
section
/-! DEFINITION. The events of the load share unit and the mains monitor, and the end of a stage's dwell (chapters 4 and 5). -/

namespace Sys2Proof.Machine

/-- DWELL_END: the tick that takes a DWELL stage's timer to 5000 ms; the stage becomes OFF and is requested if it is
wanted and permitted (R89), subject to a loss of the same instant (R91). -/
def execDwellEnd (st : Stage) (s : State) : Answer :=
  .next (s.onBlocks fun b =>
    b.when ((b.stage st).state == .dwell && (b.stage st).dwell == 4999) fun b =>
      (b.modStage st fun u => { u with state := .off, dwell := 5000, ended := true }).settle)

/-- START_ALLOWANCE_END: the tick that takes a running allowance to 0; it becomes idle (R98, R99). -/
def execStartAllowanceEnd (p : Pocket) (s : State) : Answer :=
  .next (s.onBlocks fun b =>
    b.when (b.load.allowance p == some 1) fun b => (b.modLoad fun l => l.setAllowance p none).settle)

/-- PACING_TIMER_EXPIRY: the tick that takes the pacing timer to 250 ms (R101, R102). -/
def execPacingTimerExpiry (s : State) : Answer :=
  .next (s.onBlocks fun b =>
    b.when (b.load.pacing == 249) fun b => (b.modLoad fun l => { l with pacing := 250 }).settle)

/-- The queue with a stage's not-before time gone (R103). -/
def clearNotBefore (st : Stage) (queue : List QueueEntry) : List QueueEntry :=
  queue.map fun e => if e.stage = st then { e with notBefore := none } else e

/-- NOT_BEFORE_EXPIRY: the tick that takes a queue entry's not-before time to 0 (R101, R103). -/
def execNotBeforeExpiry (st : Stage) (s : State) : Answer :=
  .next (s.onBlocks fun b =>
    b.when (b.load.queue.any fun e => e.stage == st && e.notBefore == some 1) fun b =>
      (b.modLoad fun l => { l with queue := clearNotBefore st l.queue }).settle)

/-- A judged amplitude (R110). In OPTION_FAULT the two levels stand as the row has them, and OPT_RESTORE_LEVEL may be at or
below OPT_SAG_LEVEL (R171): an amplitude between them is low in NORMAL and good in SAGGED, the table being read by the state
the mains is in (DESIGN CHOICE, log entry 37). -/
def Blocks.judgeAmplitude (b : Blocks) (amp : Nat) : Blocks :=
  let m := b.load.mains
  match m.state with
  | .normal =>
    if amp < b.sagLevel then
      if 4 ≤ m.sagStreak + 1 then
        (b.modMains fun m => { m with state := .sagged, sagStreak := 0, restoreStreak := 0 }).present .sag
      else b.modMains fun m => { m with sagStreak := m.sagStreak + 1 }
    else b.modMains fun m => { m with sagStreak := 0 }
  | .sagged =>
    if b.restoreLevel ≤ amp then
      if 16 ≤ m.restoreStreak + 1 then
        (b.modMains fun m => { m with state := .normal, restoreStreak := 0 }).withdrawCause .sag
      else b.modMains fun m => { m with restoreStreak := m.restoreStreak + 1 }
    else b.modMains fun m => { m with restoreStreak := 0 }
  | .lost => b

/-- A qualified zero crossing (R107, R109, R110, R112): the outputs follow the grant list as it stood; the amplitude of
an open half-cycle is judged; the first crossing in LOST takes the mains to SAGGED; a new half-cycle opens. -/
def Blocks.crossing (b : Blocks) : Blocks :=
  let peak := b.load.mains.keptPeak
  let b₁ := b.modLoad fun l => l.switchOutputs l.grants
  let b₂ :=
    if b.load.mains.state = .lost then b₁.modMains fun m => { m with state := .sagged, restoreStreak := 0 }
    else if b.load.mains.halfOpen then (b₁.modMains fun m => { m with lastAmplitude := peak }).judgeAmplitude peak
    else b₁
  b₂.modMains fun m => { m with halfOpen := true, keptPeak := 0, lossTimer := 0, crossedAt := b.clock }

/-- A crossing is qualified unless it follows the last qualified one by less than 4 ms (R109). -/
def Blocks.crossingQualified (b : Blocks) : Bool :=
  !b.load.mains.halfOpen || decide (b.load.mains.crossedAt + 4000 ≤ b.clock)

/-- ZERO_CROSSING: the peak is kept, and a qualified crossing acts (R107, R109 to R112). -/
def execZeroCrossing (peak : Byte) (s : State) : Answer :=
  .next (s.onBlocks fun b =>
    (b.modMains fun m => { m with keptPeak := max m.keptPeak peak.toNat }).when b.crossingQualified fun b =>
      b.crossing.settle)

/-- The mains enters LOST (R108, R111). -/
def Blocks.loseMains (b : Blocks) : Blocks :=
  let b₁ := (b.modLoad fun l => l.switchOutputs []).modMains fun m =>
    { m with state := .lost, sagStreak := 0, restoreStreak := 0, keptPeak := 0, halfOpen := false, lossTimer := 40 }
  if b.load.mains.state = .normal then b₁.present .sag else b₁

/-- MAINS_LOST: the tick that takes the loss timer to 40 ms (R111). -/
def execMainsLost (s : State) : Answer :=
  .next (s.onBlocks fun b => b.when (b.load.mains.lossTimer == 39) fun b => b.loseMains.settle)

end Sys2Proof.Machine
end

