-- ==== Sys2Proof/Machine/Temperature.lean ====
section
/-! DEFINITION. The temperature channels: translation, ring and filter, faults and recovery, and what a filtered update does (chapter 4). -/

namespace Sys2Proof.Machine

/-- A raw value within 8..1015 is a good sample (R75). -/
def goodRaw (raw : Nat) : Bool := decide (8 ≤ raw ∧ raw ≤ 1015)

/-- The side of a bad sample (R74). -/
def sideOf (raw : Nat) : Side := if raw < 8 then .low else .high

/-- The temperature of a raw value: T[i] + trunc((T[i+1] − T[i]) × f / 64) (R76). -/
def translate (row : List Byte) (raw : Nat) : Int :=
  let i := raw / 64
  let f := raw % 64
  rowPoint row i + ((rowPoint row (i + 1) - rowPoint row i) * (f : Int)).tdiv 64

/-- The ring after a translated sample enters: all four places if it was empty, else in place of the oldest (R77). -/
def enterRing (ring : List Int) (t : Int) : List Int := if ring.isEmpty then [t, t, t, t] else ring.tail ++ [t]

/-- The filtered temperature of a ring: the sum of the four over 4, toward minus infinity (R77). -/
def filterRing (ring : List Int) : Int := ring.sum.fdiv 4

/-- The channel after a translated sample has entered the ring (R77). -/
def Channel.update (c : Channel) (t : Int) : Channel :=
  { c with ring := enterRing c.ring t, translated := some t, filtered := some (filterRing (enterRing c.ring t)) }

/-- What a filtered update of an exhaust channel does, the overheat condition having been `before` (R77, R80, R87,
R35). -/
def Blocks.exhaustUpdated (b : Blocks) (p : Pocket) (before : Bool) : Blocks :=
  let b₁ := if !before && b.overheat p then (b.raiseCause (.overheat p)).lockoutFault p .overheat else b
  let b₂ := b₁.evaluateWants p
  let cool :=
    match (b₂.pocket p).exhaust.filtered with
    | some t => decide (t ≤ b₂.coolTarget p)
    | none => false
  if (b₂.pocket p).cycle.state = .cooling ∧ cool = true then b₂.coolEnd p else b₂

/-- A filtered update: the channel takes the translated sample and hands it on (R77). -/
def Blocks.filteredUpdate (b : Blocks) (ch : Sensor) (t : Int) (f : Channel → Channel) : Blocks :=
  let b₁ := b.modChannel ch fun c => f (c.update t)
  match ch with
  | .exhaust p => b₁.exhaustUpdated p (b.overheat p)
  | .inlet => b₁

/-- A channel becomes FAULTED; an exhaust channel raises SENSOR and reports its lockout condition (R78). -/
def Blocks.faultChannel (b : Blocks) (ch : Sensor) (side : Side) : Blocks :=
  let b₁ := b.modChannel ch fun c => { c with fault := some side, bad := 3, good := 0, ring := [] }
  match ch with
  | .exhaust p => (b₁.raiseCause (.sensor p)).lockoutFault p .sensor
  | .inlet => b₁

/-- A sample of a channel (R75). A good sample takes the bad streak to 0 in FAULTED as well, as the worked example after
R79 shows it. -/
def Blocks.takeSample (b : Blocks) (ch : Sensor) (raw : Nat) : Blocks :=
  let b₁ := b.modChannel ch fun c => { c with lastRaw := raw }
  let c := b.channel ch
  match c.fault with
  | none =>
    if goodRaw raw then b₁.filteredUpdate ch (translate b.working raw) fun c => { c with bad := 0 }
    else if 3 ≤ c.bad + 1 then b₁.faultChannel ch (sideOf raw)
    else b₁.modChannel ch fun c => { c with bad := c.bad + 1 }
  | some _ =>
    if goodRaw raw then
      if 10 ≤ c.good + 1 then
        b₁.filteredUpdate ch (translate b.working raw) fun c => { c with fault := none, bad := 0, good := 0 }
      else b₁.modChannel ch fun c => { c with bad := 0, good := c.good + 1 }
    else b₁.modChannel ch fun c => { c with good := 0, fault := some (sideOf raw) }

/-- The thermistor input stands at the sampled level (log entry 7). -/
def Pins.setThermistor (pins : Pins) (ch : Sensor) (raw : BitVec 10) : Pins :=
  match ch with
  | .exhaust .a => { pins with thermistorA := raw }
  | .exhaust .b => { pins with thermistorB := raw }
  | .inlet => { pins with thermistorInlet := raw }

/-- TEMPERATURE_SAMPLE (R75 to R80). -/
def execTemperatureSample (ch : Sensor) (raw : BitVec 10) (s : State) : Answer :=
  .next (s.whileRunning fun s =>
    ({ s with pins := s.pins.setThermistor ch raw } : State).modBlocks fun b => (b.takeSample ch raw.toNat).settle)

end Sys2Proof.Machine
end

