-- ==== Sys2Proof/Machine/Dispatch.lean ====
section
/-! DEFINITION. The dispatch: one arm for each command, each one direct call of its meaning. -/

namespace Sys2Proof.Machine

def exec (i : Instr) (s : State) : Host.Outcome State Fault Refusal :=
  match i with
  | .storeFrame addr data ends => Sys2Proof.Machine.execStoreFrame addr data ends s
  | .keepalive p value => Sys2Proof.Machine.execKeepalive p value s
  | .start p seq => Sys2Proof.Machine.execStart p seq s
  | .pause p seq => Sys2Proof.Machine.execPause p seq s
  | .resume p seq => Sys2Proof.Machine.execResume p seq s
  | .advance p seq => Sys2Proof.Machine.execAdvance p seq s
  | .abort p seq => Sys2Proof.Machine.execAbort p seq s
  | .clear p seq => Sys2Proof.Machine.execClear p seq s
  | .alertAck causes seq => Sys2Proof.Machine.execAlertAck causes seq s
  | .faultListClear value seq => Sys2Proof.Machine.execFaultListClear value seq s
  | .fetchFrame addr count ends => Sys2Proof.Machine.execFetchFrame addr count ends s
  | .opaqueFrame bytes ends answer => Sys2Proof.Machine.execOpaqueFrame bytes ends answer s
  | .shortFrame bytes ends => Sys2Proof.Machine.execShortFrame bytes ends s
  | .serviceAccessStart => Sys2Proof.Machine.execServiceAccessStart s
  | .serviceAccessComplete => Sys2Proof.Machine.execServiceAccessComplete s
  | .linkBusy => Sys2Proof.Machine.execLinkBusy s
  | .serviceAccessCollided done bytes ends answer => Sys2Proof.Machine.execServiceAccessCollided done bytes ends answer s
  | .powerOnReset => Sys2Proof.Machine.execPowerOnReset s
  | .powerFail => Sys2Proof.Machine.execPowerFail s
  | .pinReset => Sys2Proof.Machine.execPinReset s
  | .resetRelease => Sys2Proof.Machine.execResetRelease s
  | .serviceReset => Sys2Proof.Machine.execServiceReset s
  | .startUpWaitEnd => Sys2Proof.Machine.execStartUpWaitEnd s
  | .timeLimitReached p => Sys2Proof.Machine.execTimeLimitReached p s
  | .extensionEnd p => Sys2Proof.Machine.execExtensionEnd p s
  | .coolTimeExpiry p => Sys2Proof.Machine.execCoolTimeExpiry p s
  | .creaseBurst p => Sys2Proof.Machine.execCreaseBurst p s
  | .creaseGuardEnd p => Sys2Proof.Machine.execCreaseGuardEnd p s
  | .freshnessExpiry p => Sys2Proof.Machine.execFreshnessExpiry p s
  | .tachPulse p => Sys2Proof.Machine.execTachPulse p s
  | .silenceExpiry p => Sys2Proof.Machine.execSilenceExpiry p s
  | .spinupFail p => Sys2Proof.Machine.execSpinupFail p s
  | .runEnd p => Sys2Proof.Machine.execRunEnd p s
  | .coastEnd p => Sys2Proof.Machine.execCoastEnd p s
  | .noStop p => Sys2Proof.Machine.execNoStop p s
  | .temperatureSample ch raw => Sys2Proof.Machine.execTemperatureSample ch raw s
  | .dwellEnd st => Sys2Proof.Machine.execDwellEnd st s
  | .startAllowanceEnd p => Sys2Proof.Machine.execStartAllowanceEnd p s
  | .pacingTimerExpiry => Sys2Proof.Machine.execPacingTimerExpiry s
  | .notBeforeExpiry st => Sys2Proof.Machine.execNotBeforeExpiry st s
  | .zeroCrossing peak => Sys2Proof.Machine.execZeroCrossing peak s
  | .mainsLost => Sys2Proof.Machine.execMainsLost s
  | .electrodeSample p value => Sys2Proof.Machine.execElectrodeSample p value s
  | .debouncedChange k high => Sys2Proof.Machine.execDebouncedChange k high s
  | .chordQualify => Sys2Proof.Machine.execChordQualify s
  | .sync => Sys2Proof.Machine.execSync s
  | .syncReply => Sys2Proof.Machine.execSyncReply s
  | .lineError => Sys2Proof.Machine.execLineError s
  | .gapTimeout => Sys2Proof.Machine.execGapTimeout s
  | .unknownCommand code => Sys2Proof.Machine.execUnknownCommand code s
  | .status => Sys2Proof.Machine.execStatus s
  | .peek target n => Sys2Proof.Machine.execPeek target n s
  | .poke target n data => Sys2Proof.Machine.execPoke target n data s
  | .hold => Sys2Proof.Machine.execHold s
  | .release => Sys2Proof.Machine.execRelease s
  | .optRead off n => Sys2Proof.Machine.execOptRead off n s
  | .optWrite off n data => Sys2Proof.Machine.execOptWrite off n data s
  | .optWriteComplete => Sys2Proof.Machine.execOptWriteComplete s
  | .forceAlert causes => Sys2Proof.Machine.execForceAlert causes s
  | .resetPart => Sys2Proof.Machine.execResetPart s
  | .partToToolSlot => Sys2Proof.Machine.execPartToToolSlot s

end Sys2Proof.Machine
end

