-- ==== Sys2Proof/Machine/Tick.lean ====
section
/-! DEFINITION. What passes with time on an empty queue: one cycle of the 1 MHz service clock. Timers count, held pins are sampled, the service line is read, and the timed events that fall due join the queue (log entry 3). -/

namespace Sys2Proof.Machine

/-- The command, if it is due. -/
def due (on : Bool) (c : Instr) : List Instr := if on then [c] else []

/-! ## The 1 ms tick (R55, R58, R59, R67, R89, R98, R102, R103, R111, R146) -/

/-- The count after a tick, unless its next value is the one its event takes it to: then it stands, and the event is
posted. -/
def upTo (last v : Nat) : Nat := if v < last then v + 1 else v

/-- A remaining time falls by one; the event takes the last of it. -/
def downTo (v : Option Nat) : Option Nat := v.map fun n => if 1 < n then n - 1 else n

/-- A drum's timers after a 1 ms tick. -/
def Drum.tickMs (d : Drum) : Drum :=
  { d with
    silence := upTo 2999 d.silence
    spinTimer := if d.state = .spinup then upTo 9999 d.spinTimer else d.spinTimer
    runTimer := if d.state = .run then satSucc 65535000 d.runTimer else d.runTimer
    coastTimer := if d.state = .coast then upTo 14999 d.coastTimer else d.coastTimer }

/-- The drum events due at a 1 ms tick, the drum before it being `d`. -/
def drumDueMs (p : Pocket) (t : Tuning) (d : Drum) : List Instr :=
  let now := d.tickMs
  due (d.silence == 2999) (.silenceExpiry p) ++
  due (d.state == .spinup && d.spinTimer == 9999) (.spinupFail p) ++
  due (d.state == .run &&
    (match runLength t now with | some len => decide (len * 1000 ≤ now.runTimer) | none => false)) (.runEnd p) ++
  due (d.state == .coast && d.confirmed && decide (d.coastTimer < 14999) &&
    decide (t.pause * 1000 ≤ now.coastTimer)) (.coastEnd p) ++
  due (d.state == .coast && d.coastTimer == 14999) (.noStop p)

def StageUnit.tickMs (u : StageUnit) : StageUnit := if u.state = .dwell then { u with dwell := upTo 4999 u.dwell } else u

def stageDueMs (st : Stage) (u : StageUnit) : List Instr := due (u.state == .dwell && u.dwell == 4999) (.dwellEnd st)

/-- The load share unit's timers after a 1 ms tick. -/
def LoadShare.tickMs (l : LoadShare) : LoadShare :=
  { l with
    allowanceA := downTo l.allowanceA
    allowanceB := downTo l.allowanceB
    queue := l.queue.map fun e => { e with notBefore := downTo e.notBefore }
    pacing := upTo 249 l.pacing
    mains := { l.mains with lossTimer := upTo 39 l.mains.lossTimer } }

def loadDueMs (l : LoadShare) : List Instr :=
  due (l.allowanceA == some 1) (.startAllowanceEnd .a) ++ due (l.allowanceB == some 1) (.startAllowanceEnd .b) ++
  (l.queue.filter fun e => e.notBefore == some 1).map (fun e => .notBeforeExpiry e.stage) ++
  due (l.pacing == 249) .pacingTimerExpiry ++ due (l.mains.lossTimer == 39) .mainsLost

def PocketUnit.tickMs (u : PocketUnit) : PocketUnit :=
  { u with drum := u.drum.tickMs, stage1 := u.stage1.tickMs, stage2 := u.stage2.tickMs }

def Contacts.tickMs (c : Contacts) : Contacts :=
  if c.chord = .qualifying then { c with chordTimer := satSucc 2000 c.chordTimer } else c

def Blocks.tickMs (b : Blocks) : Blocks :=
  { b with
    pocketA := b.pocketA.tickMs, pocketB := b.pocketB.tickMs, load := b.load.tickMs, contacts := b.contacts.tickMs }

/-- The events due at a 1 ms tick, the blocks before it being `b`. -/
def Blocks.dueMs (b : Blocks) : List Instr :=
  drumDueMs .a b.pocketA.tuning b.pocketA.drum ++ drumDueMs .b b.pocketB.tuning b.pocketB.drum ++
  stageDueMs .a1 b.pocketA.stage1 ++ stageDueMs .a2 b.pocketA.stage2 ++ stageDueMs .b1 b.pocketB.stage1 ++
  stageDueMs .b2 b.pocketB.stage2 ++ loadDueMs b.load ++
  due (b.contacts.chord == .qualifying && decide (b.chordThreshold ≤ b.contacts.tickMs.chordTimer)) .chordQualify

/-! ## The 1 s tick (R20, R31, R33, R35, R37, R45, R92) -/

/-- A pocket's counters after a 1 s tick, with the heat condition of its outputs. -/
def PocketUnit.tickSecond (heated : Bool) (u : PocketUnit) : PocketUnit :=
  let c := u.cycle
  { u with
    cycle :=
      { c with
        elapsed := if c.state.heating then satSucc 65535 c.elapsed else c.elapsed
        th := if heated then satSucc 65535 c.th else c.th
        extension := if c.state = .extending ∧ u.drum.state = .run then c.extension - 1 else c.extension
        cool := if c.state = .cooling then satSucc 65535 c.cool else c.cool
        creaseTimer := if c.state = .creaseGuard then satSucc 300 c.creaseTimer else c.creaseTimer
        creaseElapsed := if c.state = .creaseGuard then satSucc 7200 c.creaseElapsed else c.creaseElapsed
        freshness := if c.state.countsFreshness ∧ 1 < c.freshness then c.freshness - 1 else c.freshness } }

/-- The pocket events due at a 1 s tick, the pocket before it being `u` and after it `v`. -/
def secondDue (p : Pocket) (u v : PocketUnit) : List Instr :=
  let c := v.cycle
  due (c.state.heating && v.limitReached) (.timeLimitReached p) ++
  due (c.state == .extending && u.drum.state == .run && c.extension == 0) (.extensionEnd p) ++
  due (c.state == .cooling && decide (v.tuning.coolTime * 60 ≤ c.cool)) (.coolTimeExpiry p) ++
  due (c.state == .creaseGuard && decide (300 ≤ c.creaseTimer) && decide (c.creaseElapsed < 7200)) (.creaseBurst p) ++
  due (c.state == .creaseGuard && decide (7200 ≤ c.creaseElapsed)) (.creaseGuardEnd p) ++
  due (c.state.countsFreshness && u.cycle.freshness == 1) (.freshnessExpiry p)

def Blocks.tickSecond (b : Blocks) : Blocks :=
  { b with
    pocketA := b.pocketA.tickSecond (b.load.outA1 || b.load.outA2)
    pocketB := b.pocketB.tickSecond (b.load.outB1 || b.load.outB2) }

def Blocks.dueSecond (b : Blocks) : List Instr :=
  secondDue .a b.pocketA b.tickSecond.pocketA ++ secondDue .b b.pocketB b.tickSecond.pocketB

/-! ## Sampling the contact pins (R138, R139, R144) -/

/-- An input after a sample of its pin; the stability timer counts from the first sample. -/
def Input.sample (first high : Bool) (u : Input) : Input :=
  { u with
    previous := u.pin
    pin := high
    stability := if first || high != u.pin then 0 else satSucc 200 u.stability }

/-- The events of an input's sample: a debounced change as the timer reaches 20.0 ms, a tach pulse on the chosen edge
but not at the first sample. -/
def inputDue (row : List Byte) (first : Bool) (i : Fin 12) (high : Bool) (u : Input) : List Instr :=
  let now := logicalLevel row i.val high
  let before := logicalLevel row i.val u.pin
  let edge := if rowEdgeInactive row i.val then before && !now else !before && now
  let pulse := !first && edge
  due ((u.sample first high).stability == 200 && u.stability == 199 && u.level != levelOf now)
    (.debouncedChange i high) ++
  match actingFunction row i.val with
  | .tach p => due pulse (.tachPulse p)
  | _ => []

/-- The level of a contact pin. -/
def Pins.contact (pins : Pins) (i : Nat) : Bool := pins.contacts.getLsbD i

def Blocks.sampleContacts (b : Blocks) (first : Bool) (pins : Pins) : Blocks :=
  { b with contacts :=
    { b.contacts with
      inputs := (List.range 12).map fun i => (b.input i).sample first (pins.contact i) } }

def Blocks.contactsDue (b : Blocks) (first : Bool) (pins : Pins) : List Instr :=
  (List.finRange 12).flatMap fun i => inputDue b.working first i (pins.contact i.val) (b.input i.val)

/-! ## The service line at one clock cycle (R159, R160, R162) -/

/-- The command that the bytes received spell, once its last parameter byte is there (R161, R184, R185). -/
def receivedCommand : List Byte → Option Instr
  | [] => none
  | code :: params =>
    match code.toNat, params with
    | 1, [] => some .status
    | 2, [a, b, c, n] => some (.peek { addr := a ++ b ++ c, busy := false } n)
    | 3, a :: b :: c :: n :: data =>
      if dataFits n data then some (.poke { addr := a ++ b ++ c, busy := false } n data) else none
    | 4, [] => some .hold
    | 5, [] => some .release
    | 6, [off, n] => some (.optRead off n)
    | 7, off :: n :: data => if dataFits n data then some (.optWrite off n data) else none
    | 8, [lo, hi] => some (.forceAlert (hi ++ lo))
    | 9, [] => some .resetPart
    | _, [] => if knownCode code then none else some (.unknownCommand code)
    | _, _ :: _ => none

/-- The line is low: the tool's drive, a 0 of an answer slot, or the reply to a SYNC from its 16th to its 112th
cycle. -/
def ServiceUnit.lineIsLow (u : ServiceUnit) (toolLow : Bool) : Bool :=
  toolLow || decide (0 < u.driveFor) || (u.receiver == .syncReply && decide (16 ≤ u.replyTimer))

/-- The timers after a cycle, before the line is read. In a command the gap timer's passing of 1024 is the event's. -/
def ServiceUnit.countCycle (u : ServiceUnit) : ServiceUnit :=
  { u with
    slotTimer := satSucc 32 u.slotTimer
    gapTimer := if u.receiver.inCommand then upTo 1024 u.gapTimer else satSucc 1025 u.gapTimer
    driveFor := u.driveFor - 1
    replyTimer := if u.receiver = .syncReply then upTo 111 u.replyTimer else u.replyTimer }

/-- The unit after a cycle, before the line is read: the timers have counted, and a slot whose cycle 32 it is has ended
(R159, R161). -/
def ServiceUnit.advance (u : ServiceUnit) : ServiceUnit :=
  let v := u.countCycle
  if v.slotTimer = 32 then v.endSlot else v

/-- How long the present low has lasted. In SYNC_REPLY the tool's low counts and the part's own does not, so that a low
the tool holds on past the reply is judged by all of its length (R160; log entry 20). -/
def ServiceUnit.lowLength (u : ServiceUnit) (toolLow : Bool) : Nat :=
  if (if u.receiver = .syncReply then toolLow else u.lineIsLow toolLow) then satSucc 200 u.lowFor else 0

/-- A bit is counted at cycle 12 of a tool-to-part slot; the eighth completes a byte. -/
def ServiceUnit.countBit (u : ServiceUnit) (low : Bool) : ServiceUnit :=
  let bits := u.bits ++ [!low]
  if bits.length = 8 then { u with bits := [], command := some (u.command.getD [] ++ [byteOfBits bits]) }
  else { u with bits := bits }

/-- Whether a low is judged as one begun in READY (R159). The edge that starts the first slot of a command code sets it, an
edge that starts another slot clears it; it stands to that slot's end, for every low of the slot, and past the end while
the line stays low and at the cycle of its release. `u` is the unit before the line is read, `held` says that the line is
low or has just been released. -/
def ServiceUnit.nextLowFromReady (u : ServiceUnit) (held falling : Bool) : Bool :=
  if u.slotTimer = 32 then if falling then u.receiver == .ready else held && u.lowFromReady else u.lowFromReady

/-- The unit after a cycle. R162 gives no order for a slot that starts on the very cycle on which the gap timer passes 1024:
in RECEIVING the slot comes first and the command goes on; in EXECUTING and ANSWERING, where the slot is an event of its
own, either comes first (DESIGN CHOICE, log entry 49). -/
def ServiceUnit.tick (u : ServiceUnit) (toolLow : Bool) : ServiceUnit :=
  let low := u.lineIsLow toolLow
  let falling := low && !u.lineLow
  let v := u.advance
  let w := if falling && v.slotTimer == 32 then v.startSlot else v
  let x := if u.receiver = .receiving ∧ w.slotTimer = 12 then w.countBit low else w
  { x with
    lineLow := low
    lowFor := u.lowLength toolLow
    lowFromReady := v.nextLowFromReady (low || u.lineLow) falling
    lowInReply := if falling then u.receiver == .syncReply else low && u.lowInReply }

/-- The command whose last bit has been counted at this cycle. -/
def ServiceUnit.commandDue (u v : ServiceUnit) : List Instr :=
  if v.receiver = .receiving ∧ v.command ≠ u.command then
    match v.command.bind receivedCommand with
    | some c => [c]
    | none => []
  else []

/-- The line's events due at a cycle, the unit before it being `u`. A low released past cycle 32 of its slot is a line
error unless it has lasted 200 cycles, which make it a SYNC; one that began in SYNC_REPLY lies in no slot (R159, R160). -/
def ServiceUnit.dueTick (u : ServiceUnit) (toolLow : Bool) : List Instr :=
  let low := u.lineIsLow toolLow
  let v := u.advance
  let released := !low && u.lineLow && u.receiver != .syncReply
  due (low && !u.lineLow && v.slotTimer == 32 && (v.receiver == .executing || v.receiver == .answering))
    .partToToolSlot ++
  u.commandDue (u.tick toolLow) ++
  due (u.receiver.inCommand && u.gapTimer == 1024) .gapTimeout ++
  due (u.receiver == .syncReply && u.replyTimer == 111) .syncReply ++
  due (released && u.slotTimer == 32 && decide (u.lowFor < 200) && !u.lowInReply) .lineError ++
  due (released && decide (200 ≤ u.lowFor)) .sync ++
  due v.resetDue .serviceReset

/-! ## The arbiter's wait (R13) -/

/-- A waiting access after a cycle. -/
def PathUnit.tick (u : PathUnit) (select : Bool) : PathUnit :=
  { u with access := u.access.map fun acc =>
    match acc.phase with
    | .waiting n => if select then { acc with phase := .waiting (upTo 9999 n) } else acc
    | .inFlight => acc }

def PathUnit.dueTick (u : PathUnit) (select : Bool) : List Instr :=
  match u.access with
  | some acc =>
    match acc.phase with
    | .waiting n => if select then due (n == 9999) .linkBusy else [.serviceAccessStart]
    | .inFlight => []
  | none => []

/-! ## The cycle -/

/-- The mains sense input's level is kept if it is the greatest since the last qualified crossing (R109). -/
def Blocks.keepPeak (b : Blocks) (level : Byte) : Blocks :=
  b.modMains fun m => { m with keptPeak := max m.keptPeak level.toNat }

/-- Whether the clock, `t` µs after step 5 of the start-up sequence, stands at a multiple of `every` µs. -/
def atMultiple (t every : Nat) : Bool := t % every == 0

/-- The instant is over: no stage's dwell has ended at the next (R91). -/
def PocketUnit.nextInstant (u : PocketUnit) : PocketUnit :=
  { u with stage1 := { u.stage1 with ended := false }, stage2 := { u.stage2 with ended := false } }

/-- The blocks with the clock at the next instant. -/
def Blocks.nextInstant (b : Blocks) : Blocks :=
  { b with clock := b.clock + 1, pocketA := b.pocketA.nextInstant, pocketB := b.pocketB.nextInstant }

/-- The blocks after a cycle, the pins being as given. The clock counts from step 5 of the start-up sequence, which leaves
open when the first contact sample falls: the first is taken 100 µs after step 5, so that the earliest settling is
20.1 ms after it (R138, R140; DESIGN CHOICE, log entry 39). -/
def Blocks.tick (b : Blocks) (pins : Pins) : Blocks :=
  let t := b.clock + 1
  let b₁ := b.nextInstant.keepPeak pins.mainsSense
  let b₂ := if atMultiple t 100 then b₁.sampleContacts (t == 100) pins else b₁
  let b₃ := if atMultiple t 1000 then b₂.tickMs else b₂
  if atMultiple t 1000000 then b₃.tickSecond else b₃

/-- The samples due at a cycle: electrodes every 10 ms, temperatures every 100 ms (R75, R117). -/
def samplesDue (t : Nat) (pins : Pins) : List Instr :=
  (if atMultiple t 10000 then [.electrodeSample .a pins.electrodeA, .electrodeSample .b pins.electrodeB] else []) ++
  if atMultiple t 100000 then
    [.temperatureSample (.exhaust .a) pins.thermistorA, .temperatureSample (.exhaust .b) pins.thermistorB,
     .temperatureSample .inlet pins.thermistorInlet]
  else []

/-- The blocks' events due at a cycle. -/
def Blocks.dueTick (b : Blocks) (pins : Pins) : List Instr :=
  let t := b.clock + 1
  (if atMultiple t 100 then b.contactsDue (t == 100) pins else []) ++
  (if atMultiple t 1000 then b.dueMs else []) ++
  (if atMultiple t 1000000 then b.tickMs.dueSecond else []) ++
  samplesDue t pins

/-- All that falls due at a cycle while the part runs. -/
def State.dueTick (s : State) : List Instr :=
  s.service.dueTick s.pins.toolLow ++ s.path.dueTick s.pins.select ++ s.blocks.dueTick s.pins

/-- The events that fell due join the queue, in an order that is a free choice (section 5.8; log entry 4). Two stages of one
pocket whose dwells end on one tick are two events of it, and either may be requested first (DESIGN CHOICE, log entry 53). -/
def State.post (s : State) (events : List Instr) : State :=
  let ordered := shuffle events.length s.blocks.draws events
  { s with pending := s.pending ++ ordered.1, blocks := { s.blocks with draws := ordered.2 } }

/-- A running part after a cycle. Every tick of the cycle's instant is counted here, before any sample or other event of
that instant is taken, where the manual gives no order: a dryness sample that completes a window finds Th and the extension
remaining with the second of its instant counted (R129; DESIGN CHOICE, log entry 38). -/
def State.runCycle (s : State) : State :=
  { s with
    blocks := s.blocks.tick s.pins
    path := s.path.tick s.pins.select
    service := s.service.tick s.pins.toolLow }

/-- One cycle of the service clock: what counts at its instant counts, and then the events of the instant are taken, so that
a chord timer that comes to its threshold has done so before a drum of that instant enters STOPPED (R146; DESIGN CHOICE, log
entry 38). Without supply, and while the RESET input holds steps 1 and 2, nothing passes. In the start-up wait the 64 ms are
counted (R172, R173). -/
def State.tick (s : State) : State :=
  match s.phase with
  | .off | .pinHeld => s
  | .startUpWait k n => if n < 63999 then { s with phase := .startUpWait k (n + 1) } else s.post [.startUpWaitEnd]
  | .running => s.runCycle.post s.dueTick

end Sys2Proof.Machine
end

