-- ==== Sys2Proof/Safety.lean ====
section
/-! DEFINITION. What a safe machine keeps, in the terms the statements use: the canonical form of the RAM, the laws of heat, dryness, lockout and the fault list, and the frames of events that reach heater stage control. -/

namespace Sys2Proof.Machine

/-! ## The heat items, and the rest -/

/-- A pocket with its heat permission, its gate and its two stages left out of account. -/
def PocketUnit.apartFromHeat (u : PocketUnit) : PocketUnit :=
  { u with permission := false, stage1 := .reset, stage2 := .reset, dryness := { u.dryness with gateOpen := false } }

/-- The load share unit with its two lists and its pacing timer left out of account. -/
def LoadShare.apartFromHeat (l : LoadShare) : LoadShare := { l with queue := [], grants := [], pacing := 0 }

/-- The blocks with those items left out of account: what an event's end, where permission and gate are judged and
stages act, never changes. -/
def Blocks.apartFromHeat (b : Blocks) : Blocks :=
  { b with
    pocketA := b.pocketA.apartFromHeat, pocketB := b.pocketB.apartFromHeat, load := b.load.apartFromHeat }

/-! ## The law of heat (R82, R83, R88, R100, R101, R105, R118) -/

/-- A stage is ON exactly if it is in the grant list and QUEUED exactly if it is in the request queue, and each list
holds it at most once (R88, R100). -/
def Blocks.ListsAgree (b : Blocks) : Prop :=
  b.load.grants.Nodup ∧ (b.load.queue.map QueueEntry.stage).Nodup ∧
    ∀ st, ((b.stage st).state = .on ↔ st ∈ b.load.grants) ∧
      ((b.stage st).state = .queued ↔ st ∈ b.load.queue.map QueueEntry.stage)

/-- What the end of every event leaves: lists that agree with the stages, permission and gate as their terms have
them, every stage as its want and its pocket's permission call for apart from the dwell (R91), the granted sum within
the effective budget (R105), and a head of the queue that may not be granted (R101). -/
def Blocks.HeatSettled (b : Blocks) : Prop :=
  b.ListsAgree ∧
    (∀ p, (b.pocket p).permission = b.permissionHolds p ∧ (b.pocket p).dryness.gateOpen = (b.pocket p).gateHolds) ∧
    (∀ st, ((b.stage st).state = .on ∨ (b.stage st).state = .queued →
        (b.stage st).want = true ∧ (b.pocket (stagePocket st)).permission = true) ∧
      ((b.stage st).state = .off → ¬((b.stage st).want = true ∧ (b.pocket (stagePocket st)).permission = true))) ∧
    b.grantedSum ≤ b.effectiveBudget ∧ b.headFits = none

/-- While the part runs, the heat items are settled. -/
def State.HeatLaw (s : State) : Prop := s.phase = .running → s.blocks.HeatSettled

/-! ## The other laws -/

/-- The open window holds at most 255 samples and no more hits than samples, W lies within 0..65535, and FILTER_WEIGHT
is at most 64 (R121, R124, R130). -/
def Dryness.Lawful (t : Tuning) (d : Dryness) : Prop :=
  d.gated ≤ 255 ∧ d.hits ≤ d.gated ∧ d.wetness ≤ 65535 ∧ t.filterWeight ≤ 64

/-- Both dryness units keep their law. -/
def State.DrynessLaw (s : State) : Prop :=
  ∀ p, (s.blocks.pocket p).dryness.Lawful (s.blocks.pocket p).tuning

/-- Each entry's serial is one more, modulo 256, than the one before it, and the next serial one more than the last
(R156). -/
def serialsFollow (next : Byte) : List FaultEntry → Prop
  | [] => True
  | [e] => next = e.serial + 1
  | e :: f :: rest => f.serial = e.serial + 1 ∧ serialsFollow next (f :: rest)

/-- The fault list holds at most sixteen entries with consecutive serials (R156). -/
def State.FaultListLaw (s : State) : Prop :=
  s.blocks.alerts.faults.length ≤ 16 ∧ serialsFollow s.blocks.alerts.nextSerial s.blocks.alerts.faults

/-- A state that STARTING can lead to, and that PAUSED and HELD can carry as the resume state (R18). -/
def CycleState.isTarget : CycleState → Bool
  | .drying | .extending | .cooling => true
  | _ => false

/-- The context's optional items are present exactly where R18 has them, with the values it gives them, and no pocket
stands in PAUSED with a lockout cause (R18, R43). -/
def Cycle.Lawful (c : Cycle) : Prop :=
  (c.startTarget.isSome ↔ c.state = .starting) ∧
    (c.resume.isSome ↔ c.state = .paused ∨ (c.state = .held ∧
      ∃ f, c.holdFrom = some f ∧ (f.isActive = true ∨ f = .paused))) ∧
    (c.holdFrom.isSome ↔ c.state = .held) ∧ c.holdFrom ≠ some .held ∧
    (∀ t, c.startTarget = some t → t.isTarget = true) ∧ (∀ t, c.resume = some t → t.isTarget = true) ∧
    (c.state = .paused → c.lockout = none)

/-- Both contexts are lawful, and a pocket is HELD exactly while service hold stands (R18, R43, R46, R47). -/
def State.CycleLaw (s : State) : Prop :=
  ∀ p, (s.blocks.pocket p).cycle.Lawful ∧ ((s.blocks.pocket p).cycle.state = .held ↔ s.blocks.held = true)

/-! ## Premises and frames of the statements on the memory path -/

/-- A record's staging bytes have their size, and none is touched (section 1.3). -/
def Staging.Untouched (st : Staging) (size : Nat) : Prop :=
  st.bytes.length = size ∧ st.touched = List.replicate size false

/-- What a commit asks besides its own conditions: the part runs and captures, no service access stands on the link,
nothing is touched in the record, and `seq` differs from its last-taken SEQ (R6). -/
def State.CommitReady (s : State) (r : RecordId) (size : Nat) (seq : Byte) : Prop :=
  s.phase = .running ∧ s.captures = true ∧ s.path.access = none ∧ (s.path.staging r).Untouched size ∧
    (s.path.staging r).lastSeq ≠ seq

/-- The state after a frame of the appliance controller: what passed on the link, select released or active again with the
next frame (R13), no frame state. -/
def State.afterFrame (s : State) (toRam : List Byte) (ends : FrameEnd (List Bool)) (toController : List Byte)
    (toControllerCut : List Bool) : State :=
  { s with
    link := { toRam := toRam, toRamCut := ends.cut, toController := toController, toControllerCut := toControllerCut }
    pins := { s.pins with select := ends.again }
    path := { s.path with frame := none, passThrough := false } }

/-- The state after a frame that stores SEQ and the ACTION code of pocket `p` and is taken with a result: the two
bytes in the RAM, the staging record equal to the values in effect with the ACTION code kept, nothing touched, SEQ
taken (R7, R8, R10). Everything else is as it was, but for the blocks, which are given. -/
def State.afterCommit (s : State) (p : Pocket) (seq code : Byte) (result : ActionResult) (b : Blocks) : State :=
  let r := RecordId.pocket p
  let at_ := s.demandAddress (recordOffset r)
  let t := s.afterFrame (s.blocks.storeCode :: addressBytes at_ ++ [seq, code]) .clean [] []
  { t with
    blocks := b
    ram := writeRamBytes (startAddress at_) [seq, code] s.ram
    path :=
      (t.path.setStaging r
          { bytes := restoreStaging (s.blocks.pocket p).tuning ((s.path.staging r).bytes.set 1 code)
            touched := List.replicate 24 false
            lastSeq := seq }).setResult r
        { seq := seq, action := result, clamped := 0, torn := 0, refused := 0 } }

/-- The drum with a spin-up begun in a direction (R57): MOTOR_RUN is on, DIR and next direction show it. -/
def Drum.spunUp (d : Drum) (dir : Direction) : Drum :=
  { d with
    dir := dir, nextDir := dir, state := .spinup, silence := 0, confirmed := false, spinTimer := 0, runTimer := 0,
    drag := 0 }

/-- Whether a drum that RUN or BURST is held for begins its spin-up now, unless its belt shows broken (R57). -/
def Blocks.spinsUp (b : Blocks) (d : Drum) : Bool :=
  d.state == .stopped && d.confirmed && !b.held && b.valid

/-- A drum that RUN or BURST is held for and that may spin up does so in the direction given, its start allowance
running (R57, R98); a belt that shows broken makes it a BELT fault instead (R57, R68). -/
def Blocks.afterSpinUp (b : Blocks) (p : Pocket) (dir : Direction) : Blocks :=
  if b.beltBroken p then b.drumFault p .belt
  else { b.modDrum p (fun d => d.spunUp dir) with load := b.load.setAllowance p (some 2000) }

/-- The direction of a spin-up: the next direction, or FWD under RUN with REV_RUN 0 (R57). -/
def PocketUnit.spinDirection (u : PocketUnit) : Direction :=
  if u.drum.request = .run ∧ u.tuning.revRun = 0 then .fwd else u.drum.nextDir

/-- A drum after a stop request (R56): STOP is held; in SPINUP or RUN it coasts, its next direction kept, with the coast
and the silence timer restarted. -/
def Drum.askedToStop (d : Drum) : Drum :=
  if d.state = .spinup ∨ d.state = .run then
    { d with request := .stop, state := .coast, coastTimer := 0, silence := 0 }
  else { d with request := .stop }

/-- A pocket that a panel stop has reached (R49): from an active state, CREASE_GUARD or PAUSED it goes to IDLE, or to FAULTED
with a lockout cause recorded, with a stop request. -/
def PocketUnit.panelStopped (u : PocketUnit) : PocketUnit :=
  match u.cycle.state with
  | .idle | .done | .faulted | .held => u
  | _ =>
    { u with
      cycle :=
        { u.cycle with
          state := if u.cycle.lockout.isSome then .faulted else .idle, startTarget := none, resume := none }
      drum := u.drum.askedToStop }

/-- A drum has entered STOPPED (R67): its reference is gone, the stop chord is judged at the change, against 50 ms with both
drums STOPPED and 2000 ms otherwise (R146; before the spin-up, log entry 14), and under RUN or BURST the drum spins up. -/
def Blocks.afterStopping (b : Blocks) (p : Pocket) : Blocks :=
  let stands := b.modDrum p fun d => { d with state := .stopped, reference := none }
  let threshold := if stands.pocketA.drum.state = .stopped ∧ stands.pocketB.drum.state = .stopped then 50 else 2000
  let judged :=
    if stands.contacts.chord = .qualifying ∧ threshold ≤ stands.contacts.chordTimer then
      { stands with
        contacts := { stands.contacts with chord := .spent }
        pocketA := stands.pocketA.panelStopped, pocketB := stands.pocketB.panelStopped }
    else stands
  let u := judged.pocket p
  if judged.spinsUp u.drum && u.drum.request != .stop then judged.afterSpinUp p u.spinDirection else judged

/-- A pocket that a lockout fault of a cause has reached, by the table of R41; with a cause recorded it stands (R43). -/
def PocketUnit.lockedOut (k : Lockout) (u : PocketUnit) : PocketUnit :=
  let c := { u.cycle with lockout := some k }
  if u.cycle.lockout.isSome then u
  else
    match u.cycle.state with
    | .starting | .drying | .extending => { u with cycle := { c with state := .cooling, startTarget := none } }
    | .cooling => { u with cycle := c }
    | .paused | .creaseGuard =>
      { u with
        cycle := { c with state := .faulted, startTarget := none, resume := none }, drum := u.drum.askedToStop }
    | .idle | .done | .faulted | .held => u

/-- The blocks with causes of no fault pending besides those that are (R152). -/
def Blocks.withPending (b : Blocks) (causes : BitVec 16) : Blocks :=
  { b with alerts := { b.alerts with pending := b.alerts.pending ||| causes } }

/-- The lockout cause a pocket has once it has entered a state: the recorded one, else that of the condition that holds
(R41, R43). -/
def Blocks.causeAtEntry (b : Blocks) (p : Pocket) : Option Lockout :=
  (b.pocket p).cycle.lockout <|> (b.lockoutConditions p).head?

/-- No more than one lockout condition could be met at an entry, so that no free choice is taken (log entry 4). -/
def Blocks.OneCause (b : Blocks) (p : Pocket) : Prop :=
  (b.pocket p).cycle.lockout.isSome ∨ (b.lockoutConditions p).length ≤ 1

/-! ## The two shapes of the statements on events -/

/-- A command answers a next state in which the event has ended on the blocks given: both pockets' permissions and gates
judged, stages requested and withdrawn, grants revoked, the head of the queue judged (`Blocks.settle`), which leaves the heat
items settled if the lists agreed with the stages; `next` gives the rest of the state, which the command names. -/
def State.SettlesAs (s : State) (c : Instr) (next : Blocks → State) (before : Blocks) : Prop :=
  exec c s = .next (next before.settle) ∧ (s.blocks.ListsAgree → before.settle.HeatSettled)

/-- The same for an event that leaves everything but the blocks as it is: the RAM, the path unit, the service line, the
pins, the queue. -/
def State.SettlesTo (s : State) (c : Instr) (before : Blocks) : Prop :=
  s.SettlesAs c (fun b => { s with blocks := b }) before

/-- The command that commits an action to a pocket. -/
def Action.command (a : Action) (p : Pocket) (seq : Byte) : Instr :=
  match a with
  | .start => .start p seq
  | .pause => .pause p seq
  | .resume => .resume p seq
  | .advance => .advance p seq
  | .abort => .abort p seq
  | .clear => .clear p seq

/-- An action answered NOT_NOW: nothing changes in the pocket but its freshness, reloaded by the take, and TAKE is
raised (R10, R21, R45). -/
def State.TurnsAway (s : State) (p : Pocket) (seq : Byte) (a : Action) : Prop :=
  s.SettlesAs (a.command p seq) (s.afterCommit p seq a.code .notNow)
    ((s.blocks.modCycle p fun c => { c with freshness := s.blocks.freshSeconds }).withPending 0x4000)

/-! ## Premises and frames of the statements on the service line -/

/-- The service line unit after its command has completed: last result, collided byte count, and the answer's bits
(R161, R163). -/
def ServiceUnit.answered (u : ServiceUnit) (r : CommandResult) (collided : Nat) (bytes : List Byte) : ServiceUnit :=
  { u with lastResult := r, collided := collided, answer := some (bytes.flatMap bitsOf) }

/-- The part runs and the unit takes a command of these bytes (R161). -/
def State.Takes (s : State) (bytes : List Byte) : Prop := s.phase = .running ∧ s.service.accepts bytes = true

/-- A service access that has started: a PEEK has frozen the record of its first byte, if that is a substituted one
(R13, R15). -/
def State.startedAccess (s : State) (acc : Access) : Access :=
  { acc with
    phase := .inFlight
    snaps :=
      match acc.kind, pageOffset s.blocks.reportBase (startAddress acc.addr) with
      | .peek, some off =>
        if substituted s.blocks (reportPlace off).1 then
          Snapshots.none.set (reportPlace off).1 (liveRecord s (reportPlace off).1)
        else .none
      | _, _ => .none }

/-- The state after a service access has ended with a result: the command it was handed for has completed, unless it has been
abandoned (R162), and an access that waited for this one to end is at the arbiter, where it starts with select inactive and
waits otherwise (R13, R162). -/
def State.afterAccess (s : State) (acc : Access) (r : CommandResult) (collided : Nat) (answer : List Byte) : State :=
  let u := if acc.owned then s.service.answered r collided answer else s.service
  let t := { s with service := { u with heldAccess := none }, path := { s.path with access := none } }
  match u.heldAccess with
  | none => t
  | some next =>
    let placed := if t.pins.select then { next with phase := .waiting 0 } else t.startedAccess next
    { t with path := { t.path with access := some placed } }

/-- The state after the appliance controller has asserted select and cut a service access in flight after `k` bytes: of a
POKE they are in the RAM, COLLIDED with the count k, and of a PEEK nothing is returned (R14, R163, R164). -/
def State.afterCut (s : State) (acc : Access) (k : Nat) : State :=
  let t := { s with pins := { s.pins with select := true } }
  match acc.kind with
  | .poke =>
    State.afterAccess
      { t with
        ram := writeRamBytes (startAddress acc.addr) (acc.data.take k) s.ram
        link := { s.link with
          toRam := s.blocks.storeCode :: addressBytes acc.addr ++ acc.data.take k, toRamCut := [] } }
      acc .collided k [2, BitVec.ofNat 8 k]
  | .peek =>
    State.afterAccess
      { t with link := { s.link with toRam := s.blocks.fetchCode :: addressBytes acc.addr, toRamCut := [] } }
      acc .collided k (2 :: List.replicate acc.count 0xFF)

/-- The state after an OPT_READ or OPT_WRITE has been carried out (R167): a read within the row answers its bytes, a write
within the row in hold begins the nonvolatile write, and any other is REFUSED. -/
def State.afterOption (s : State) (c : OptionCommand) : State :=
  match c with
  | .read off n =>
    { s with
      service :=
        if off.toNat + n.toNat ≤ 128 then
          s.service.answered .ok 0 (0 :: (s.storedRow.drop off.toNat).take n.toNat)
        else s.service.answered .refused 0 (1 :: List.replicate n.toNat 0xFF) }
  | .write off n data =>
    if s.blocks.held = true ∧ off.toNat + n.toNat ≤ 128 then
      { s with nvWrite := some { off := off.toNat, data := data, owned := true } }
    else
      { s with
        service := s.service.answered .refused 0 [1, if s.blocks.optionState = .valid then 0 else 1] }

/-! ## Tach pulses -/

/-- A pulse can be found: at the second sample after a reset or later, and 100 µs or more after the last pulse (R144; the
first sample stands 100 µs after step 5, log entry 39). -/
def State.PulseTime (s : State) (p : Pocket) : Prop :=
  200 ≤ s.blocks.clock ∧ ∀ ref, (s.blocks.pocket p).drum.reference = some ref → ref + 100 ≤ s.blocks.clock

/-- A pulse found at a sample of the pin of input `i`, the carrier of the pocket's TACH function: the pin level is the one
whose logical level the edge setting names, the one before it the other, and the stability timer restarts (R137, R138,
R139, R144); with that input the event ends on the blocks given. -/
def State.PulseSettles (s : State) (p : Pocket) (i : Nat) (before : Blocks) : Prop :=
  let active := !rowEdgeInactive s.blocks.working i
  let high := active != rowActiveLow s.blocks.working i
  s.SettlesAs (.tachPulse p) (fun b => { s with blocks := b, pins := s.pins.setContact i high })
    { before with contacts :=
      { before.contacts with
        inputs := s.blocks.contacts.inputs.set i { s.blocks.input i with pin := high, previous := !high, stability := 0 } } }

/-! ## What a clock cycle finds due -/

/-- A contact input after the sample of its pin at the next cycle: the stability timer restarts at the first sample and at
a changed level, and counts up to 20.0 ms otherwise (R138, R139, R140). -/
def State.inputAfterSample (s : State) (i : Nat) : Input :=
  let u := s.blocks.input i
  let high := s.pins.contacts.getLsbD i
  { u with
    previous := u.pin, pin := high
    stability := if s.blocks.clock + 1 = 100 ∨ high ≠ u.pin then 0 else min 200 (u.stability + 1) }

/-- The commands of the blocks whose time comes at the next clock cycle: on each 1 ms those of the drums, the stages, the
load share unit, the mains and the chord (R55, R58, R59, R67, R89, R98, R102, R103, R111, R146); on each 1 s those of the
pockets (R31, R33, R35, R37, R38, R45); the samples of the electrodes each 10 ms and of the thermistors each 100 ms (R75,
R117); with the contact samples each 100 µs the debounced changes and the pulses (R138, R139, R144). -/
def State.TimeDue (s : State) (c : Instr) : Prop :=
  let clock := s.blocks.clock + 1
  let ms : Prop := clock % 1000 = 0
  let second : Prop := clock % 1000000 = 0
  let l := s.blocks.load
  let drum := fun p => (s.blocks.pocket p).drum
  let tuning := fun p => (s.blocks.pocket p).tuning
  let cycle := fun p => (s.blocks.pocket p).cycle
  match c with
  | .silenceExpiry p => ms ∧ (drum p).silence = 2999
  | .spinupFail p => ms ∧ (drum p).state = .spinup ∧ (drum p).spinTimer = 9999
  | .runEnd p => ms ∧ (drum p).state = .run ∧
      ∃ len, runLength (tuning p) (drum p) = some len ∧ len * 1000 ≤ min 65535000 ((drum p).runTimer + 1)
  | .coastEnd p => ms ∧ (drum p).state = .coast ∧ (drum p).confirmed = true ∧ (drum p).coastTimer < 14999 ∧
      (tuning p).pause * 1000 ≤ (drum p).coastTimer + 1
  | .noStop p => ms ∧ (drum p).state = .coast ∧ (drum p).coastTimer = 14999
  | .dwellEnd st => ms ∧ (s.blocks.stage st).state = .dwell ∧ (s.blocks.stage st).dwell = 4999
  | .startAllowanceEnd p => ms ∧ l.allowance p = some 1
  | .notBeforeExpiry st => ms ∧ { stage := st, notBefore := some 1 } ∈ l.queue
  | .pacingTimerExpiry => ms ∧ l.pacing = 249
  | .mainsLost => ms ∧ l.mains.lossTimer = 39
  | .chordQualify => ms ∧ s.blocks.contacts.chord = .qualifying ∧
      s.blocks.chordThreshold ≤ min 2000 (s.blocks.contacts.chordTimer + 1)
  | .timeLimitReached p => second ∧ ((cycle p).state = .drying ∨ (cycle p).state = .extending) ∧
      (tuning p).timeLimit * 60 ≤ min 65535 ((cycle p).elapsed + 1)
  | .extensionEnd p => second ∧ (cycle p).state = .extending ∧ (drum p).state = .run ∧ (cycle p).extension ≤ 1
  | .coolTimeExpiry p => second ∧ (cycle p).state = .cooling ∧
      (tuning p).coolTime * 60 ≤ min 65535 ((cycle p).cool + 1)
  | .creaseBurst p => second ∧ (cycle p).state = .creaseGuard ∧ 299 ≤ (cycle p).creaseTimer ∧
      (cycle p).creaseElapsed < 7199
  | .creaseGuardEnd p => second ∧ (cycle p).state = .creaseGuard ∧ 7199 ≤ (cycle p).creaseElapsed
  | .freshnessExpiry p => second ∧ (cycle p).state.countsFreshness = true ∧ (cycle p).freshness = 1
  | .electrodeSample p v => clock % 10000 = 0 ∧ v = (match p with | .a => s.pins.electrodeA | .b => s.pins.electrodeB)
  | .temperatureSample ch raw => clock % 100000 = 0 ∧ raw =
      (match ch with
        | .exhaust .a => s.pins.thermistorA
        | .exhaust .b => s.pins.thermistorB
        | .inlet => s.pins.thermistorInlet)
  | .debouncedChange i high => clock % 100 = 0 ∧ high = s.pins.contacts.getLsbD i.val ∧
      (s.blocks.input i.val).stability = 199 ∧ (s.inputAfterSample i.val).stability = 200 ∧
      (s.blocks.input i.val).level ≠ (if logicalLevel s.blocks.working i.val high = true then .active else .inactive)
  | .tachPulse p => clock % 100 = 0 ∧ clock ≠ 100 ∧ ∃ i, i < 12 ∧ actingFunction s.blocks.working i = .tach p ∧
      let before := logicalLevel s.blocks.working i (s.blocks.input i).pin
      let now := logicalLevel s.blocks.working i (s.pins.contacts.getLsbD i)
      if rowEdgeInactive s.blocks.working i = true then before = true ∧ now = false
      else before = false ∧ now = true
  | _ => False

end Sys2Proof.Machine
end

