-- ==== Sys2Proof/Certificates/Slice0/Obligations.lean ====
section
/-! DEFINITION. The statements for the provers. Each says in its docstring which rules of the manual it formalises; where it rests on the model's own choice it names the log entry. -/

open Sys2Proof Sys2Proof.Machine

/-! ## The step -/

/-- A step on a queue with commands takes the one at the front and answers what `exec` answers on the state with the
queue's rest. -/
def Obligations.StepRunsFrontCommand : Prop :=
  ∀ (s : State) (c : Instr) (rest : List Instr),
    s.pending = c :: rest → step s = exec c { s with pending := rest }

/-- The model's choice, log entry 3: on an empty queue a step is one cycle of the 1 MHz service clock. While the part runs
the clock moves on by 1 µs; no cycle changes the RAM, the stored row, the pins, the alert sets, the fault list, a record's
staging or a take result, and no pocket's fields, temperatures or windows. What counts (R20, R45, R55, R89, R92, R98,
R102, R103, R109, R111, R138, R139): on each 1 ms the drums' and the stages' timers, the start allowances, the not-before
times, the pacing, the loss and the chord timer; on each 1 s the pockets' counters; on each 100 µs the contact pins are
sampled; the greatest level of the mains sense input is kept. What joins the queue, in an order that is free (log entry
4): the events of blocks whose time has come (`State.TimeDue`), and those of the service line and the arbiter, which the
statements on them give. A count stands one short of the value its event takes it to, and the event takes the last one.
Without supply, and while the RESET input holds steps 1 and 2, nothing passes; in the start-up wait its 64 ms are counted,
and then START_UP_WAIT_END joins the queue (R172, R173). -/
def Obligations.EmptyQueueStepIsOneClockCycle : Prop :=
  (∀ s : State, s.pending = [] → s.phase = .running →
    ∃ t, step s = .next t ∧ t.phase = .running ∧ t.blocks.clock = s.blocks.clock + 1 ∧ t.ram = s.ram ∧
      t.storedRow = s.storedRow ∧ t.nvWrite = s.nvWrite ∧ t.pins = s.pins ∧ t.link = s.link ∧
      t.blocks.alerts = s.blocks.alerts ∧ (∀ r, t.path.staging r = s.path.staging r) ∧
      (∀ r, t.path.result r = s.path.result r) ∧
      let clock := s.blocks.clock + 1
      let l := s.blocks.load
      let ms : Prop := clock % 1000 = 0
      let second : Prop := clock % 1000000 = 0
      let up := fun last v : Nat => if ms ∧ v < last then v + 1 else v
      let down := fun v : Option Nat => if ms then v.map fun n => if 1 < n then n - 1 else n else v
      let heated := fun p : Pocket => match p with | .a => l.outA1 || l.outA2 | .b => l.outB1 || l.outB2
      let stage := fun u : StageUnit =>
        { u with dwell := if u.state = .dwell then up 4999 u.dwell else u.dwell, ended := false }
      (∀ p, t.blocks.pocket p =
        let u := s.blocks.pocket p
        let c := u.cycle
        let d := u.drum
        let counts := c.state = .starting ∨ c.state = .drying ∨ c.state = .extending ∨ c.state = .cooling ∨
          c.state = .creaseGuard ∨ c.state = .paused
        { u with
          drum :=
            { d with
              silence := up 2999 d.silence
              spinTimer := if d.state = .spinup then up 9999 d.spinTimer else d.spinTimer
              runTimer := if ms ∧ d.state = .run then min 65535000 (d.runTimer + 1) else d.runTimer
              coastTimer := if d.state = .coast then up 14999 d.coastTimer else d.coastTimer }
          stage1 := stage u.stage1
          stage2 := stage u.stage2
          cycle :=
            { c with
              elapsed :=
                if second ∧ (c.state = .drying ∨ c.state = .extending) then min 65535 (c.elapsed + 1) else c.elapsed
              th := if second ∧ heated p = true then min 65535 (c.th + 1) else c.th
              extension :=
                if second ∧ c.state = .extending ∧ d.state = .run then c.extension - 1 else c.extension
              cool := if second ∧ c.state = .cooling then min 65535 (c.cool + 1) else c.cool
              creaseTimer := if second ∧ c.state = .creaseGuard then min 300 (c.creaseTimer + 1) else c.creaseTimer
              creaseElapsed :=
                if second ∧ c.state = .creaseGuard then min 7200 (c.creaseElapsed + 1) else c.creaseElapsed
              freshness := if second ∧ counts ∧ 1 < c.freshness then c.freshness - 1 else c.freshness } }) ∧
      t.blocks.load =
        { l with
          allowanceA := down l.allowanceA, allowanceB := down l.allowanceB
          queue := l.queue.map fun e => { e with notBefore := down e.notBefore }
          pacing := up 249 l.pacing
          mains :=
            { l.mains with
              keptPeak := max l.mains.keptPeak s.pins.mainsSense.toNat, lossTimer := up 39 l.mains.lossTimer } } ∧
      t.blocks.contacts =
        { s.blocks.contacts with
          inputs := if clock % 100 = 0 then (List.range 12).map fun i => s.inputAfterSample i
            else s.blocks.contacts.inputs
          chordTimer := if ms ∧ s.blocks.contacts.chord = .qualifying then min 2000 (s.blocks.contacts.chordTimer + 1)
            else s.blocks.contacts.chordTimer } ∧
      t.blocks.inlet = s.blocks.inlet ∧ t.blocks.working = s.blocks.working ∧
      t.blocks.optionState = s.blocks.optionState ∧ t.blocks.held = s.blocks.held ∧
      ∀ c, c ∈ t.pending ↔
        s.TimeDue c ∨ c ∈ s.service.dueTick s.pins.toolLow ∨ c ∈ s.path.dueTick s.pins.select) ∧
  ∀ s : State, s.pending = [] →
    (s.phase = .off ∨ s.phase = .pinHeld → step s = .next s) ∧
    ∀ k n, s.phase = .startUpWait k n →
      step s = .next
        (if n < 63999 then { s with phase := .startUpWait k (n + 1) } else { s with pending := [.startUpWaitEnd] })

/-! ## The laws every step keeps -/

/-- The external RAM keeps its canonical form over every step. -/
def Obligations.EveryStepKeepsRamCanonical : Prop :=
  ∀ s t : State, Memory.wf s.ram = true → step s = .next t → Memory.wf t.ram = true

/-- While the part runs, every step leaves the heat items settled: the grant list and the request queue hold each stage
at most once and exactly the stages ON and QUEUED (R88, R100), permission and gate stand as their terms have them (R82,
R118), no stage is ON or QUEUED without its want and its pocket's permission (R89), the granted sum is within the
effective budget (R105), and the head of the queue may not be granted (R101). A stage granted in a settled machine is
one of a pocket in DRYING or EXTENDING with its drum in RUN, no lockout cause, no hold and a valid row (R83). -/
def Obligations.EveryStepKeepsHeatLaw : Prop :=
  (∀ s t : State, s.HeatLaw → step s = .next t → t.HeatLaw) ∧
  ∀ b : Blocks, b.HeatSettled → ∀ st, st ∈ b.load.grants →
    let u := b.pocket (stagePocket st)
    (u.cycle.state = .drying ∨ u.cycle.state = .extending) ∧ u.drum.state = .run ∧ u.cycle.lockout = none ∧
      b.held = false ∧ b.optionState = .valid

/-- Every step keeps, for both pockets, an open window of at most 255 samples with no more hits than samples, a wetness
index within 0..65535, and a FILTER_WEIGHT of at most 64 (R121, R124, R130). -/
def Obligations.EveryStepKeepsDrynessLaw : Prop :=
  ∀ s t : State, s.DrynessLaw → step s = .next t → t.DrynessLaw

/-- Every step keeps the fault list at no more than sixteen entries, each serial one more, modulo 256, than the one
before it and the next serial one more than the last (R156). -/
def Obligations.EveryStepKeepsFaultListLaw : Prop :=
  ∀ s t : State, s.FaultListLaw → step s = .next t → t.FaultListLaw

/-- The optional items of the cycle context stand where R18 has them, a PAUSED pocket has no lockout cause (R43), and a
pocket is HELD exactly while hold stands (R46, R47): every step keeps this. -/
def Obligations.EveryStepKeepsCycleLaw : Prop :=
  ∀ s t : State, s.CycleLaw → step s = .next t → t.CycleLaw

/-- DIR changes only while the motor was off, or at a reset, which gives the drum its reset values (R52). -/
def Obligations.DirectionChangesOnlyWithMotorOff : Prop :=
  ∀ (s t : State) (p : Pocket), step s = .next t →
    (t.blocks.pocket p).drum.dir ≠ (s.blocks.pocket p).drum.dir →
      (s.blocks.pocket p).drum.motorOn = false ∨ (t.blocks.pocket p).drum = Drum.reset

/-- The state after reset meets every law above: the canonical form of the RAM and the laws of heat, dryness, the fault
list and the cycle. -/
def Obligations.ResetMeetsEveryLaw : Prop :=
  Memory.wf State.reset.ram = true ∧ State.reset.HeatLaw ∧ State.reset.DrynessLaw ∧ State.reset.FaultListLaw ∧
    State.reset.CycleLaw

/-! ## Start-up and resets (R169 to R173) -/

/-- START_UP_WAIT_END at the end of the 64 ms: the stored row is loaded and checked, every block takes its reset values,
the reset kind is recorded, the fault list is emptied at POWER_ON and kept at the other kinds, HIGH_LIMIT of a pocket
whose HILIMIT no input carries is presented, and the path begins interpreting, the staging bytes of SEQ, ACTION and
KEEPALIVE at 0 by the model's choice (log entry 52). That the fault list and next serial kept at a PIN reset are those of
before a loss of supply, where that reset abandons the start-up wait of the POWER_ON reset before its step 5, is the
model's choice (log entry 50). The check of a row (R170): it is VALID exactly when the sum of bytes 0 to 125 modulo 65536
is the word in bytes 126 and 127, both page bases have their low 8 bits zero and differ in their low 17 bits, the two
frame codes differ, OPT_RESTORE_LEVEL is above OPT_SAG_LEVEL, OPT_FRESH lies within 2 to 60, T[0] to T[16] never fall or
never rise, and no function code from 1 to 12 stands at two inputs. The codes and bases in use are the working copy's in
VALID and the defaults in OPTION_FAULT (R17, R171). -/
def Obligations.StartUpGivesResetValues : Prop :=
  (∀ (s : State) (k : ResetKind), s.phase = .startUpWait k 63999 →
    ∃ b, exec .startUpWaitEnd s = .next
        { s with
          phase := .running, resetKind := k, blocks := b, service := .reset
          path := { PathUnit.reset (min 31 (rowByte s.storedRow 0x08)) with
            interpreting := true, passThrough := s.pins.select } } ∧
      b.working = s.storedRow ∧ b.optionState = checkRow s.storedRow ∧ b.held = false ∧
      b.pocketA = .reset ∧ b.pocketB = .reset ∧ b.inlet = .reset ∧
      b.load = .reset (min 31 (rowByte s.storedRow 0x08)) ∧ b.contacts = .reset ∧
      b.alerts.forced = 0 ∧ b.alerts.enabled = 0 ∧ b.alerts.pending = b.alerts.presented ∧
      (∀ p, inSet b.alerts.presented (.highLimit p) = (carrier s.storedRow (.hilimit p)).isNone) ∧
      ((∀ p, (carrier s.storedRow (.hilimit p)).isSome) →
        b.alerts = if k = .powerOn then Alerts.reset
          else { Alerts.reset with faults := s.blocks.alerts.faults, nextSerial := s.blocks.alerts.nextSerial })) ∧
  (∀ row : List Byte,
    let byte := fun i => (row.getD i 0).toNat
    let word := fun i => byte i + 256 * byte (i + 1)
    let base := fun i => (word i + 0x10000 * byte (i + 2)) % 0x20000
    let point := fun i : Nat =>
      let v := word (0x14 + 2 * i)
      if v < 0x8000 then (v : Int) else (v : Int) - 0x10000
    let code := fun i => byte (0x36 + i) % 16
    checkRow row = .valid ↔
      ((row.take 126).map BitVec.toNat).sum % 65536 = word 126 ∧ byte 0x02 = 0 ∧ byte 0x05 = 0 ∧
        base 0x02 ≠ base 0x05 ∧ byte 0x00 ≠ byte 0x01 ∧ byte 0x0E < byte 0x0F ∧ 2 ≤ byte 0x12 ∧ byte 0x12 ≤ 60 ∧
        ((∀ i, i < 16 → point i ≤ point (i + 1)) ∨ ∀ i, i < 16 → point (i + 1) ≤ point i) ∧
        ∀ i j, i < j → j < 12 → code i = code j → code i = 0 ∨ 13 ≤ code i) ∧
  ∀ b : Blocks,
    let byte := fun i => (b.working.getD i 0).toNat
    let base := fun i => BitVec.ofNat 17 (byte i + 256 * byte (i + 1) + 0x10000 * byte (i + 2))
    (b.optionState = .valid →
      b.fetchCode = b.working.getD 0x00 0 ∧ b.storeCode = b.working.getD 0x01 0 ∧ b.demandBase = base 0x02 ∧
        b.reportBase = base 0x05) ∧
    (b.optionState = .optionFault →
      b.fetchCode = 0x3A ∧ b.storeCode = 0x5C ∧ b.demandBase = 0x1FE00 ∧ b.reportBase = 0x1FF00)

/-- What a reset, or a supply that falls, does at once (R16, R108, R172, R173): every stage output de-energised, the alert
sets empty with the fault list and next serial kept so far, over a loss of supply too by the model's choice (log entry 50),
the path transparent with nothing in flight; the release of the RESET input
begins the wait of a PIN reset. Here nothing was in flight on the memory side or in the nonvolatile store. The model's
choices: both drums and the service line unit stand at their reset values from here on, where R172 gives reset values at
step 5 (log entry 23, read from R52 and R172), and the RAM stands over a loss of the supply (log entry 18). Any of the four,
POWER_ON, the fall of the supply, PIN and SERVICE, cuts what is in flight: of a POKE some first bytes, fewer than all, are
in the RAM (R16), and of a nonvolatile write some bytes of lower offset are in the stored row (R167). How many is a free
choice (log entry 4). -/
def Obligations.ResetsBeginAtOnce : Prop :=
  (∀ s : State, s.path.access = none → s.nvWrite = none →
     let b := { s.blocks with
       pocketA := { s.blocks.pocketA with drum := .reset }
       pocketB := { s.blocks.pocketB with drum := .reset }
       load := { s.blocks.load with outA1 := false, outA2 := false, outB1 := false, outB2 := false }
       alerts := { s.blocks.alerts with pending := 0, forced := 0, enabled := 0, presented := 0 } }
     let begun := fun ph : Phase => { s with
       phase := ph, blocks := b, service := .reset
       path := { s.path with interpreting := false, passThrough := false, frame := none } }
     exec .powerOnReset s = .next (begun (.startUpWait .powerOn 0)) ∧
     exec .powerFail s = .next (begun .off) ∧
     (s.phase ≠ .off → exec .pinReset s = .next { begun .pinHeld with pins := { s.pins with resetInput := true } }) ∧
     (s.phase = .running → s.service.resetDue = true →
       exec .serviceReset s = .next (begun (.startUpWait .service 0))) ∧
     (s.phase = .pinHeld →
       exec .resetRelease s =
         .next { s with phase := .startUpWait .pin 0, pins := { s.pins with resetInput := false } })) ∧
  ∀ (s : State) (c : Instr), c = .powerOnReset ∨ c = .powerFail ∨ (c = .pinReset ∧ s.phase ≠ .off) ∨
      (c = .serviceReset ∧ s.phase = .running ∧ s.service.resetDue = true) →
    ∃ t, exec c s = .next t ∧ t.path.access = none ∧ t.nvWrite = none ∧
      (∀ acc, s.path.access = some acc → acc.phase = .inFlight → acc.kind = .poke → 1 ≤ acc.count →
        ∃ k, k < acc.count ∧ t.ram = writeRamBytes (startAddress acc.addr) (acc.data.take k) s.ram) ∧
      ((∀ acc, s.path.access = some acc → acc.phase ≠ .inFlight ∨ acc.kind = .peek) → t.ram = s.ram) ∧
      (∀ w, s.nvWrite = some w →
        ∃ m, m ≤ w.data.length ∧ t.storedRow = writeRow s.storedRow w.off (w.data.take m)) ∧
      (s.nvWrite = none → t.storedRow = s.storedRow)

/-! ## The memory path (R1 to R17, R174 to R176) -/

/-- Every data byte of a STORE frame reaches the RAM, whatever it is captured for (R1, R2, R4); of a byte cut short the RAM
takes nothing, which is the model's choice (log entry 34). A frame whose bytes all lie
outside the demand records' fields, SEQ and KEEPALIVE bytes, outside the demand page or in its ordinary memory, which a
record's bytes in no field belong to (record offsets 0x18 to 0x3F, page offsets 0x88 on; R4, R176), or a frame that passes
while nothing is captured (R16, R17), changes nothing else: no block, no staging record, no take result, no service item.
Select is inactive after it, or active again with the controller's next frame (R13; log entry 42), and a service access that
waits goes on waiting. -/
def Obligations.StoreFrameReachesRam : Prop :=
  ∀ (s : State) (addr : BitVec 24) (data : List Byte) (ends : FrameEnd (List Bool)),
    s.phase ≠ .off → (∀ acc, s.path.access = some acc → acc.phase ≠ .inFlight) →
    (∃ t, exec (.storeFrame addr data ends) s = .next t ∧
      t.ram = writeRamBytes (startAddress addr) data s.ram ∧
      t.link =
        { toRam := s.blocks.storeCode :: addressBytes addr ++ data, toRamCut := ends.cut, toController := []
          toControllerCut := [] } ∧
      t.pins = { s.pins with select := ends.again }) ∧
    (s.captures = false ∨
      (∀ i off, i < data.length →
        pageOffset s.blocks.demandBase (startAddress addr + BitVec.ofNat 17 i) = some off →
        (0x18 ≤ off ∧ off < 0x40) ∨ (0x58 ≤ off ∧ off < 0x80) ∨ 0x88 ≤ off) →
      exec (.storeFrame addr data ends) s = .next
        { s.afterFrame (s.blocks.storeCode :: addressBytes addr ++ data) ends [] [] with
          ram := writeRamBytes (startAddress addr) data s.ram })

/-- A run of bytes written to the RAM is read back byte by byte at the addresses from its start on, which wrap from
0x1FFFF to 0, and every other address reads as before. -/
def Obligations.RamReadsWhatWasStored : Prop :=
  ∀ (ram : List Host.Cell) (addr : BitVec 17) (data : List Byte) (a : BitVec 17),
    Memory.wf ram = true → data.length ≤ 0x20000 →
    readRam (writeRamBytes addr data ram) a.toNat =
      match data[(a - addr).toNat]? with
      | some v => v
      | none => readRam ram a.toNat

/-- A STORE byte in a field of a demand record is written to the RAM and to the same byte of the record's staging record,
and enters the touched map; without SEQ in the frame nothing is taken (R4, R6). A frame that writes SEQ with the
last-taken value takes nothing either: the bytes touched before stay touched, and only the RAM holds the byte (R6). Where
the bytes lie (R3, R175, R176): the page is the 256 addresses from its base on; the pocket records begin at 0x00 and 0x40,
with SEQ at their first byte, KEEPALIVE at 0x02, ACTION and the fields at 0x01 and 0x03 to 0x17, and the rest in no field;
the common record has SEQ at page offset 0x80 and its fields at 0x81 to 0x87, and all from 0x88 on lies in no field. What
a run of bytes does (`State.storeBytes`, R2, R4, R5, R176): the first byte has its effect and the others theirs from the
next address on, 0x1FFFF being followed by 0x00000; every byte is in the RAM, and while stores are captured a byte of a
field is staged and touched, a KEEPALIVE byte reloads freshness, a SEQ byte is the last one kept of its record in this
frame, and any other does no more. -/
def Obligations.StoresAreStagedUntilANewSeq : Prop :=
  (∀ (s : State) (addr : BitVec 24) (v : Byte) (ends : FrameEnd (List Bool)) (off i : Nat) (r : RecordId),
    s.phase ≠ .off → s.path.access = none → s.captures = true →
    pageOffset s.blocks.demandBase (startAddress addr) = some off →
    let st := s.path.staging r
    let passed := { s.afterFrame (s.blocks.storeCode :: addressBytes addr ++ [v]) ends [] [] with
      ram := writeRam (startAddress addr).toNat v s.ram }
    (demandByte off = .field r i →
      exec (.storeFrame addr [v] ends) s = .next
        { passed with
          path := passed.path.setStaging r { st with bytes := st.bytes.set i v, touched := st.touched.set i true } }) ∧
    (demandByte off = .seq r → v = st.lastSeq → exec (.storeFrame addr [v] ends) s = .next passed)) ∧
  (∀ (base a : BitVec 17) (off : Nat), pageOffset base a = some off ↔ off < 256 ∧ a = base + BitVec.ofNat 17 off) ∧
  (∀ (p : Pocket) (k : Nat), k < 0x40 →
    demandByte ((if p = .a then 0x00 else 0x40) + k) =
      if k = 0x00 then .seq (.pocket p) else if k = 0x02 then .keepalive p
      else if k ≤ 0x17 then .field (.pocket p) k else .ordinary) ∧
  (demandByte 0x80 = .seq .common ∧ (∀ k, 1 ≤ k → k ≤ 7 → demandByte (0x80 + k) = .field .common k) ∧
    ∀ off, 0x88 ≤ off → demandByte off = .ordinary) ∧
  ∀ (s : State) (addr : BitVec 17) (v : Byte) (rest : List Byte),
    let stored := { s with ram := writeRam addr.toNat v s.ram }
    let at_ := pageOffset s.blocks.demandBase addr
    let goes := fun t : State => s.storeBytes addr (v :: rest) = t.storeBytes (addr + 1) rest
    s.storeBytes addr [] = s ∧
    (s.captures = false ∨ at_ = none → goes stored) ∧
    ∀ off, s.captures = true → at_ = some off →
      (∀ r i, demandByte off = .field r i →
        let st := s.path.staging r
        goes { stored with
          path := s.path.setStaging r { st with bytes := st.bytes.set i v, touched := st.touched.set i true } }) ∧
      (∀ p, demandByte off = .keepalive p →
        goes { stored with blocks := s.blocks.modCycle p fun c => { c with freshness := s.blocks.freshSeconds } }) ∧
      (∀ r, demandByte off = .seq r →
        goes { stored with path := { s.path with frame := s.path.frame.map fun f =>
          match r with
          | .pocket .a => { f with seqA := some v }
          | .pocket .b => { f with seqB := some v }
          | .common => { f with seqCommon := some v } } }) ∧
      (demandByte off = .ordinary → goes stored)

/-- A KEEPALIVE store reloads the pocket's freshness remaining to OPT_FRESH, of whatever value, reaches the RAM, and
changes nothing else; while nothing is captured it only reaches the RAM (R5, R16, R17). -/
def Obligations.KeepaliveReloadsFreshness : Prop :=
  ∀ (s : State) (p : Pocket) (v : Byte), s.phase ≠ .off → s.path.access = none →
    let addr := s.demandAddress (recordOffset (.pocket p) + 0x02)
    exec (.keepalive p v) s = .next
      { s.afterFrame (s.blocks.storeCode :: addressBytes addr ++ [v]) .clean [] [] with
        ram := writeRam (startAddress addr).toNat v s.ram
        blocks := if s.captures = true
          then s.blocks.modCycle p fun c => { c with freshness := s.blocks.freshSeconds } else s.blocks }

/-- How the take judges a field of a pocket record (R7, R29, R72, R85, R131), each by its number, first byte, size and
range or legal codes (R28, R71, R84, R130, R175): with none of its bytes touched it keeps its value; with some touched and
some not it is torn, keeps its value and joins the torn set; touched whole it is taken within its range or its legal
codes, clamped to its nearer end and in the clamped set outside a range, and refused outside its codes or, for MODE,
outside IDLE, DONE and FAULTED (in HELD by the hold-from state). A two-byte field stands low byte first. After the take
the staging record equals the values in effect (`restoreStaging`): every field's bytes are its value's, low byte first,
and every other byte stands (R7, R8). -/
def Obligations.FieldsAreJudgedByTheTouchedMap : Prop :=
  let rows : List (PocketField × Nat × Nat × Nat × Nat × Nat) :=
    [(.mode, 1, 0x03, 1, 0, 1), (.heatSet, 2, 0x04, 1, 80, 170), (.heatBand, 3, 0x05, 1, 2, 20),
     (.stage2Offset, 4, 0x06, 1, 0, 40), (.heatLevel, 5, 0x07, 1, 0, 2), (.timeLimit, 6, 0x08, 2, 1, 120),
     (.wetLevel, 7, 0x0A, 2, 16, 1008), (.filterWeight, 8, 0x0C, 1, 1, 64), (.dryTarget, 9, 0x0D, 2, 256, 32768),
     (.confirm, 10, 0x0F, 1, 1, 15), (.margin, 11, 0x10, 1, 0, 255), (.coolSet, 12, 0x11, 1, 60, 120),
     (.coolTime, 13, 0x12, 1, 1, 15), (.fwdRun, 14, 0x13, 1, 10, 240), (.revRun, 15, 0x14, 1, 0, 240),
     (.pause, 16, 0x15, 1, 2, 15), (.speedLow, 17, 0x16, 1, 20, 60), (.crease, 18, 0x17, 1, 0, 1)]
  (∀ f : PocketField, f ∈ rows.map Prod.fst) ∧
  (∀ (t : Tuning) (bytes : List Byte),
    (∀ f number off size lo hi, (f, number, off, size, lo, hi) ∈ rows → ∀ k, k < size → off + k < bytes.length →
      (restoreStaging t bytes)[off + k]? = some (BitVec.ofNat 8 (t.get f / 256 ^ k))) ∧
    (∀ i, i < bytes.length → i < 0x03 ∨ 0x18 ≤ i → (restoreStaging t bytes)[i]? = bytes[i]?) ∧
    (0x18 ≤ bytes.length → (restoreStaging t bytes).length = bytes.length)) ∧
  ∀ (u : PocketUnit) (st : Staging) (f : PocketField) (number off size lo hi : Nat),
    (f, number, off, size, lo, hi) ∈ rows →
    let j := judgeFields u st
    let byte := fun i => (st.bytes.getD i 0).toNat
    let v := if size = 2 then byte off + 256 * byte (off + 1) else byte off
    let touched := (st.touched.drop off).take size
    let from_ := if u.cycle.state = .held then u.cycle.holdFrom else some u.cycle.state
    let modeOpen := from_ = some .idle ∨ from_ = some .done ∨ from_ = some .faulted
    let ok := v ≤ hi ∧ (f = .mode → modeOpen)
    let bits := fun k : BitVec 24 => k.getLsbD (number - 1)
    (true ∉ touched →
      j.tuning.get f = u.tuning.get f ∧ bits j.clamped = false ∧ bits j.torn = false ∧ bits j.refused = false) ∧
    (true ∈ touched → false ∈ touched →
      j.tuning.get f = u.tuning.get f ∧ bits j.clamped = false ∧ bits j.torn = true ∧ bits j.refused = false) ∧
    (true ∈ touched → false ∉ touched →
      if f = .mode ∨ f = .crease then
        (ok → j.tuning.get f = v ∧ bits j.refused = false) ∧
          (¬ok → j.tuning.get f = u.tuning.get f ∧ bits j.refused = true) ∧ bits j.clamped = false ∧ bits j.torn = false
      else
        j.tuning.get f = max lo (min hi v) ∧ (bits j.clamped = true ↔ v < lo ∨ hi < v) ∧ bits j.torn = false ∧
          bits j.refused = false)

/-- A frame that stores a new SEQ to a pocket record, alone or with an ACTION code beside it, takes the record (R6 to R8,
R10): the fields come into effect as judged and are delivered, each that its owner compares is compared, and then a
touched ACTION, stored in this frame or before, is answered by the state that this leaves (R8, R21); an untouched one
answers nothing. The staging record equals the values in effect, nothing is touched, SEQ is taken and echoed, freshness is
reloaded (R45), and TAKE is raised for a clamped, torn or refused field and for NOT_NOW, ILLEGAL and HELD. Then what the
delivery of the fields comes to. For a pocket in IDLE with its drum STOPPED no field moves the pocket. What one delivered
field, the only one taken, compares: TIME_LIMIT in DRYING and EXTENDING (R31); COOL_TIME and COOL_SET in COOLING (R35),
where a COOL_SET taken while the exhaust channel is FAULTED leaves the pocket cooling by the model's reading (log entry
16); FWD_RUN and REV_RUN in a cycle run (R60); PAUSE in a COAST with its stop confirmed, which enters STOPPED, where a
chord that qualifies is judged (R67, R146; log entry 14); SPEED_LOW at the gate (R119); a heat field at the wants of both
stages (R85), against the filtered temperature that stands, also while the channel is FAULTED, which is the model's choice
(log entry 36). In a state that compares nothing, and with a field that nothing compares, the pocket stands. Several
fields of one take are compared in an order that is the model's (log entry 33). A frame that stores new SEQ values to
several records takes each of them once, one after the other, in an order that is a free choice (R6; log entry 4). -/
def Obligations.CommitTakesTheRecord : Prop :=
  (∀ (s : State) (p : Pocket) (seq : Byte) (action : Option Byte),
    s.phase = .running → s.captures = true → s.path.access = none → (s.path.staging (.pocket p)).lastSeq ≠ seq →
    let u := s.blocks.pocket p
    let record := s.path.staging (.pocket p)
    let st :=
      match action with
      | none => record
      | some code => { record with bytes := record.bytes.set 1 code, touched := record.touched.set 1 true }
    let j := judgeFields u st
    let addr := s.demandAddress (recordOffset (.pocket p))
    let data := seq :: action.toList
    let delivered := s.blocks.deliver p j
    let answer :=
      if st.touched.getD 1 false = true then delivered.answerCode p (st.bytes.getD 1 0).toNat else (.none, delivered)
    let r : TakeResult := { seq := seq, action := answer.1, clamped := j.clamped, torn := j.torn, refused := j.refused }
    let quiet := r.clamped = 0 ∧ r.torn = 0 ∧ r.refused = 0 ∧ (r.action = .none ∨ r.action = .accepted)
    let fresh := answer.2.modCycle p fun c => { c with freshness := s.blocks.freshSeconds }
    let before := if quiet then fresh else fresh.withPending 0x4000
    exec (.storeFrame addr data .clean) s = .next
      { s.afterFrame (s.blocks.storeCode :: addressBytes addr ++ data) .clean [] [] with
        blocks := before.settle
        ram := writeRamBytes (startAddress addr) data s.ram
        path :=
          { (s.path.setStaging (.pocket p)
              { bytes := restoreStaging j.tuning st.bytes, touched := st.touched.map fun _ => false
                lastSeq := seq }).setResult (.pocket p) r with
            frame := none, passThrough := false } } ∧
    (s.blocks.ListsAgree → before.settle.HeatSettled) ∧
    (st.touched.getD 1 false = false → ∀ t, exec (.storeFrame addr data .clean) s = .next t →
      (j.taken = [.speedLow] → s.blocks.ListsAgree →
        ((t.blocks.pocket p).dryness.gateOpen = true ↔
          (u.cycle.state = .drying ∨ u.cycle.state = .extending) ∧ u.drum.state = .run ∧
            j.tuning.speedLow ≤ u.drum.speed)) ∧
      (j.taken = [.heatSet] ∨ j.taken = [.heatBand] ∨ j.taken = [.stage2Offset] ∨ j.taken = [.heatLevel] →
        (u.exhaust.filtered = none → (t.blocks.pocket p).stage1.want = u.stage1.want ∧
          (t.blocks.pocket p).stage2.want = u.stage2.want) ∧
        ∀ te, u.exhaust.filtered = some te →
          let want := fun (met : Prop) (upper : Int) (before after : Bool) =>
            (¬met → after = false) ∧ (met → te ≤ upper - j.tuning.heatBand → after = true) ∧
              (met → upper - j.tuning.heatBand < te → upper ≤ te → after = false) ∧
              (met → upper - j.tuning.heatBand < te → te < upper → after = before)
          want (1 ≤ j.tuning.heatLevel) j.tuning.heatSet u.stage1.want (t.blocks.pocket p).stage1.want ∧
            want (2 ≤ j.tuning.heatLevel) (j.tuning.heatSet - j.tuning.stage2Offset) u.stage2.want
              (t.blocks.pocket p).stage2.want))) ∧
  (∀ (b : Blocks) (p : Pocket) (st : Staging),
    let u := b.pocket p
    let j := judgeFields u st
    let tuned := b.modPocket p fun u => { u with tuning := j.tuning }
    let target : Int :=
      match b.inlet.fault, b.inlet.filtered with
      | none, some t => max (j.tuning.coolSet : Int) (t + 20)
      | _, _ => j.tuning.coolSet
    let only := fun f => j.taken = [f]
    let heat := fun f => f = PocketField.heatSet ∨ f = .heatBand ∨ f = .stage2Offset ∨ f = .heatLevel
    let comes := fun delivered : Blocks => b.deliver p j = delivered
    (u.cycle.state = .idle → u.drum.state = .stopped →
      ((∃ f, heat f ∧ f ∈ j.taken) → comes (tuned.evaluateWants p)) ∧
        ((∀ f, heat f → f ∉ j.taken) → comes tuned)) ∧
    (only .timeLimit → b.OneCause p →
      comes
        (if j.tuning.timeLimit * 60 ≤ u.cycle.elapsed ∧ (u.cycle.state = .drying ∨ u.cycle.state = .extending) then
          tuned.modCycle p fun c =>
            { c with
              state := .cooling, startTarget := none, lockout := b.causeAtEntry p
              endFlag := some (if c.state = .extending then .confirmedDry
                else if j.tuning.mode = 1 then .timedEnd else .limitReached) }
        else tuned)) ∧
    (only .coolTime →
      comes (if u.cycle.state = .cooling ∧ j.tuning.coolTime * 60 ≤ u.cycle.cool then tuned.coolEnd p else tuned)) ∧
    (only .coolSet →
      (u.cycle.state ≠ .cooling ∨ u.exhaust.fault.isSome ∨ u.exhaust.filtered = none → comes tuned) ∧
      ∀ te, u.exhaust.filtered = some te → u.cycle.state = .cooling → u.exhaust.fault = none →
        comes (if te ≤ target then tuned.coolEnd p else tuned)) ∧
    (only .fwdRun ∨ only .revRun →
      let seconds := if u.drum.dir = .fwd then j.tuning.fwdRun else j.tuning.revRun
      let endless := u.drum.dir = .fwd ∧ j.tuning.revRun = 0
      comes
        (if u.drum.state = .run ∧ u.drum.request = .run ∧ ¬endless ∧ seconds * 1000 ≤ u.drum.runTimer then
          tuned.modDrum p fun d =>
            { d with
              state := .coast, coastTimer := 0, silence := 0
              nextDir := if j.tuning.revRun = 0 then .fwd else d.dir.flip }
        else tuned)) ∧
    (only .pause →
      comes
        (if u.drum.state = .coast ∧ u.drum.confirmed = true ∧ j.tuning.pause * 1000 ≤ u.drum.coastTimer then
          tuned.afterStopping p
        else tuned)) ∧
    ∀ f, only f →
      (heat f → comes (tuned.evaluateWants p)) ∧
        (f ∉ [.timeLimit, .coolTime, .coolSet, .fwdRun, .revRun, .pause] → ¬heat f → comes tuned)) ∧
  ∀ (s : State) (addr : BitVec 24) (data : List Byte) (ends : FrameEnd (List Bool)),
    s.phase ≠ .off → s.captures = true → s.path.access = none →
    let code := s.blocks.storeCode :: addressBytes addr ++ data
    let passed := (s.beginFrame.noteLink code ends.cut [] []).storeBytes (startAddress addr) data
    let seqAt := fun i r => pageOffset s.blocks.demandBase (startAddress addr + BitVec.ofNat 17 i) = some (recordOffset r)
    ∃ (order : List (RecordId × Byte)) (n : Nat),
      exec (.storeFrame addr data ends) s = .next
        ((order.foldl (fun (s : State) rv => s.takeRecord rv.1 rv.2)
          { passed with blocks := { passed.blocks with draws := n } }).endFrame ends.again) ∧
      (order.map Prod.fst).Nodup ∧
      ∀ r v, (r, v) ∈ order ↔ v ≠ (s.path.staging r).lastSeq ∧
        ∃ i, data[i]? = some v ∧ seqAt i r ∧ ∀ k, i < k → k < data.length → ¬seqAt k r

/-- A FETCH frame changes nothing but the link and select, which is inactive after it or active again with the next frame
(R13; log entry 42): byte by byte the controller gets the part's byte where the address lies in a substituted report
record and the RAM's byte elsewhere, and of a byte cut short its first bits (R1, R2, R11, R12, R16, R17), which are the
most significant ones by the model's choice (log entry 46). Every record of the frame is shown as it stands in the one
state the frame passes in: that is the model's choice (log entry 10), where R12 freezes each record at its first byte and
lets two records show different moments. The bytes of the records stand by the layouts of R177 to R179, the codes of R180
and the forms of R181. That the dwell remaining, bytes 0x33 and 0x34, reads 0 outside DWELL is the model's reading (log
entry 24). The common record is formed and returned alike in both option states (R12, R17, R178, R181), the inlet's raw
sample and temperatures included, where R94 closes with a remark that the controller cannot read those in OPTION_FAULT:
that the remark changes no byte is the model's reading (log entry 43). -/
def Obligations.FetchReturnsReportOrRam : Prop :=
  (∀ (s : State) (addr : BitVec 24) (n : Nat) (ends : FrameEnd Nat), s.phase ≠ .off → s.path.access = none →
    s.interprets = true →
    let byteAt := fun i =>
      let a := startAddress addr + BitVec.ofNat 17 i
      match pageOffset s.blocks.reportBase a with
      | some off =>
        if substituted s.blocks (reportPlace off).1 then
          (liveRecord s (reportPlace off).1).getD (reportPlace off).2 0
        else readRam s.ram a.toNat
      | none => readRam s.ram a.toNat
    exec (.fetchFrame addr n ends) s = .next
      (s.afterFrame (s.blocks.fetchCode :: addressBytes addr) { cut := [], again := ends.again }
        ((List.range n).map byteAt) ((List.range (min ends.cut 8)).map fun k => (byteAt n).getLsbD (7 - k)))) ∧
  ∀ s : State,
    let state := fun c => [CycleState.idle, .starting, .drying, .extending, .cooling, .creaseGuard, .done, .paused,
      .faulted, .held].idxOf c
    let fault := fun c : Channel => [none, some Side.low, some .high].idxOf c.fault
    let bit := fun (k : Nat) (on : Bool) => if on then 2 ^ k else 0
    let heat := fun t : Option Int =>
      match t with
      | none => 0x8000
      | some v => (BitVec.ofInt 16 (if v = -32768 then -32767 else v)).toNat
    let small := fun t : Option Int =>
      match t with
      | none => 0x80
      | some v => (BitVec.ofInt 8 (if 127 < v then 127 else if v < -127 then -127 else v)).toNat
    let holds := fun (record : List Byte) (rows : List (Nat × Nat × Nat)) =>
      ∀ off size v, (off, size, v) ∈ rows → (record.drop off).take size = toLe size v
    (∀ p,
      let u := s.blocks.pocket p
      let c := u.cycle
      let d := u.drum
      let r := s.path.result (.pocket p)
      let left := fun g : StageUnit => if g.state = .dwell then (5000 - g.dwell) / 1000 else 0
      let stage := fun g : StageUnit => [StageState.off, .dwell, .queued, .on].idxOf g.state
      (liveRecord s (.pocket p)).length = 64 ∧
      holds (liveRecord s (.pocket p))
        [(0x00, 1, r.seq.toNat), (0x01, 1, [ActionResult.none, .accepted, .notNow, .illegal, .held].idxOf r.action),
         (0x02, 3, r.clamped.toNat), (0x05, 3, r.torn.toNat), (0x08, 3, r.refused.toNat), (0x0B, 1, state c.state),
         (0x0C, 1, (c.startTarget.map state).getD 0xFF), (0x0D, 1, (c.resume.map state).getD 0xFF),
         (0x0E, 1, (c.holdFrom.map state).getD 0xFF),
         (0x0F, 1, (c.lockout.map [Lockout.overheat, .highLimit, .sensor, .stale, .drum].idxOf).getD 0xFF),
         (0x10, 1, (c.endFlag.map [EndFlag.confirmedDry, .limitReached, .timedEnd, .advanced, .aborted].idxOf).getD 0xFF),
         (0x11, 1, c.freshness), (0x12, 2, c.elapsed), (0x14, 2, c.th), (0x16, 2, c.extension), (0x18, 2, c.cool),
         (0x1A, 2, c.creaseTimer), (0x1C, 2, c.creaseElapsed),
         (0x1E, 1, bit 0 (d.dir == .rev) + bit 1 (d.nextDir == .rev) + bit 2 d.confirmed + bit 3 u.permission +
           bit 4 u.stage1.want + bit 5 u.stage2.want + bit 6 u.dryness.gateOpen),
         (0x1F, 1, [DrumState.stopped, .spinup, .run, .coast].idxOf d.state),
         (0x20, 1, [DrumRequest.stop, .run, .burst].idxOf d.request),
         (0x21, 1, [none, some DrumFault.spinupFail, some .stall, some .noStop, some .belt].idxOf d.lastFault),
         (0x22, 2, d.period), (0x24, 1, d.speed), (0x25, 1, d.spinTimer / 1000), (0x26, 2, d.runTimer / 1000),
         (0x28, 1, d.coastTimer / 1000), (0x29, 1, d.drag + 16 * d.tangles), (0x2A, 1, fault u.exhaust),
         (0x2B, 2, u.exhaust.lastRaw), (0x2D, 2, heat u.exhaust.translated), (0x2F, 2, heat u.exhaust.filtered),
         (0x31, 1, stage u.stage1), (0x32, 1, stage u.stage2), (0x33, 1, left u.stage1), (0x34, 1, left u.stage2),
         (0x35, 2, u.dryness.lastSample), (0x37, 1, u.dryness.gated), (0x38, 1, u.dryness.hits),
         (0x39, 2, u.dryness.lastHits), (0x3B, 2, u.dryness.wetness), (0x3D, 2, u.dryness.windows),
         (0x3F, 1, u.dryness.streak)]) ∧
    (let b := s.blocks
     let r := s.path.resultCommon
     let m := b.load.mains
     let pin := fun k i => bit k (b.input i).pin
     let level := fun i => [Level.unsettled, .active, .inactive].idxOf (b.input i).level
     let place := fun st => if st ∈ b.load.queue.map QueueEntry.stage then (b.load.queue.map QueueEntry.stage).idxOf st + 1
       else if st ∈ b.load.grants then b.load.grants.idxOf st + 5 else 0
     let notBefore := fun st =>
       (((b.load.queue.find? fun e => e.stage == st).bind QueueEntry.notBefore).map fun ms => ms / 100).getD 63
     let heater := fun st i => notBefore st + bit 6 (b.load.output st) + pin 7 i
     (liveRecord s .common).length = 32 ∧
     holds (liveRecord s .common)
       [(0x00, 1, r.seq.toNat),
        (0x01, 1, r.clamped.toNat % 32 + bit 5 b.held + bit 6 s.service.permit + bit 7 (b.optionState == .optionFault)),
        (0x02, 1, r.torn.toNat % 32 +
          32 * [CommandResult.ok, .refused, .collided, .linkBusy, .timeout].idxOf s.service.lastResult),
        (0x03, 1, r.refused.toNat % 32 + 32 * [ResetKind.powerOn, .pin, .service].idxOf s.resetKind + pin 7 4),
        (0x04, 2, b.alerts.pending.toNat), (0x06, 2, b.alerts.forced.toNat), (0x08, 2, b.alerts.enabled.toNat),
        (0x0A, 1, b.alerts.top.getD 0xFF), (0x0B, 1, b.baseBudget + 32 * b.allowances + pin 7 5),
        (0x0C, 1, b.effectiveBudget + 32 * [MainsState.normal, .sagged, .lost].idxOf m.state + pin 7 6),
        (0x0D, 1, b.grantedSum + 64 * [ChordState.inactive, .qualifying, .spent].idxOf b.contacts.chord),
        (0x0E, 1, place .a1 + 16 * place .a2), (0x0F, 1, place .b1 + 16 * place .b2),
        (0x10, 1, heater .a1 0), (0x11, 1, heater .a2 1), (0x12, 1, heater .b1 2), (0x13, 1, heater .b2 3),
        (0x14, 1, b.load.pacing), (0x15, 1, m.sagStreak + 8 * m.restoreStreak), (0x16, 1, m.lastAmplitude),
        (0x17, 2, b.inlet.lastRaw % 1024 + 1024 * fault b.inlet + pin 12 8 + pin 13 9 + pin 14 10 + pin 15 11),
        (0x19, 1, small b.inlet.translated), (0x1A, 1, small b.inlet.filtered),
        (0x1B, 1, level 0 + 4 * level 1 + 16 * level 2 + 64 * level 3),
        (0x1C, 1, level 4 + 4 * level 5 + 16 * level 6 + 64 * level 7),
        (0x1D, 1, level 8 + 4 * level 9 + 16 * level 10 + 64 * level 11),
        (0x1E, 2, b.contacts.chordTimer + 2048 * s.service.collided + pin 15 7)]) ∧
    (s.blocks.alerts.faults.length ≤ 16 → (liveRecord s .faults).length = 96 ∧ ∀ i, i < 16 →
      ((liveRecord s .faults).drop (6 * i)).take 6 =
        match s.blocks.alerts.faults[i]? with
        | none => List.replicate 6 0xFF
        | some e =>
          [e.serial, BitVec.ofNat 8 e.cause.number, BitVec.ofNat 8 ([some Pocket.a, some .b, none].idxOf e.cause.pocketOf),
           BitVec.ofNat 8 ((e.state.map state).getD 0xFF)] ++ toLe 2 e.elapsed)

/-- A FETCH frame that passes while the path is transparent, or that was in progress when interpreting began, returns the
RAM's bytes throughout, and of a byte cut short its first bits, the most significant ones (R1, R16; log entry 46); opaque
and short frames are forwarded as they are, an opaque one both ways to the last bit, and interpreted as nothing (R1).
Select is inactive after each, or active again with the next frame (R13; log entry 42). That a frame the part cannot read
leaves the RAM as it was is the model's choice (log entry 32). -/
def Obligations.UninterpretedFramesPass : Prop :=
  ∀ (s : State) (ends : FrameEnd (List Bool)), s.phase ≠ .off → s.path.access = none →
    (∀ (addr : BitVec 24) (n cut : Nat), s.interprets = false →
      let byteAt := fun i => readRam s.ram (startAddress addr + BitVec.ofNat 17 i).toNat
      ∃ bytes bits, exec (.fetchFrame addr n { cut := cut, again := ends.again }) s = .next
          (s.afterFrame (s.blocks.fetchCode :: addressBytes addr) { cut := [], again := ends.again } bytes bits) ∧
        bytes.length = n ∧ (∀ i, i < n → bytes[i]? = some (byteAt i)) ∧
        bits.length = min cut 8 ∧ ∀ k, k < min cut 8 → bits[k]? = some ((byteAt n).getLsbD (7 - k))) ∧
    (∀ (code : Byte) (rest : List Byte) (answer : RamAnswer), code ≠ s.blocks.storeCode → code ≠ s.blocks.fetchCode →
      exec (.opaqueFrame (code :: rest) ends answer) s =
        .next (s.afterFrame (code :: rest) ends answer.bytes answer.cut)) ∧
    ∀ bytes : List Byte, bytes.length < 4 →
      exec (.shortFrame bytes ends) s = .next (s.afterFrame bytes ends [] [])

/-- A waiting service access starts when select is inactive, a PEEK with the snapshot of its first byte's record frozen at
that moment (R13); that R15's freezing at the first byte falls at the start is the model's choice (log entry 17). One whose
10 ms expire with select still active is given up without having run: LINK_BUSY, a PEEK's data 0xFF bytes and a POKE's
count 0 (R13, R164), an access of a later command that waited for this one then waiting in its place (R162); with select
inactive it is not given up. At a clock cycle an access that waits counts its 10 ms while
select is active, LINK_BUSY joining the queue at their end, and SERVICE_ACCESS_START once select is inactive. -/
def Obligations.WaitingAccessStartsOrIsGivenUp : Prop :=
  ∀ (s : State) (acc : Access), s.phase = .running → s.path.access = some acc →
    (∀ n, acc.phase = .waiting n → s.pins.select = false →
      exec .serviceAccessStart s = .next { s with path := { s.path with access := some (s.startedAccess acc) } }) ∧
    (acc.phase = .waiting 9999 → s.pins.select = true →
      exec .linkBusy s = .next
        (s.afterAccess acc .linkBusy 0
          (match acc.kind with | .peek => 3 :: List.replicate acc.count 0xFF | .poke => [3, 0]))) ∧
    (s.pins.select = false → exec .linkBusy s = .next s) ∧
    ∀ n, acc.phase = .waiting n → s.pending = [] →
      ∃ t, step s = .next t ∧
        t.path.access = some
          { acc with phase := .waiting (if s.pins.select = true ∧ n < 9999 then n + 1 else n) } ∧
        (.linkBusy ∈ t.pending ↔ s.pins.select = true ∧ n = 9999) ∧
        (.serviceAccessStart ∈ t.pending ↔ s.pins.select = false)

/-- A service access that runs to its last byte: OK; a POKE's bytes are in the RAM and nowhere else, not in a staging
record; a PEEK returns byte by byte the part's byte in a substituted report record, from the snapshot kept of it or, for a
record reached later, from the record as it stands, and the RAM's byte elsewhere; the command's answer is OK with the
count, or with the bytes (R11, R13, R15, R163, R164). One cut by the appliance controller after k bytes: of a POKE those
bytes stay in the RAM and the answer is COLLIDED with the count k; of a PEEK nothing is returned but 0xFF bytes; the count
k is the collided byte count. The controller's frame then passes whole, an opaque one as it is, a STORE or a FETCH frame
as on a free link (R14, R163, R164); a frame that names no count cuts after one that is free (log entry 4). An access
whose command has been abandoned ends in the same way and reports nothing; an access of a later command that waited for it
then starts, or waits where the controller has select (R13, R162). The model's choices: the RAM's bytes of a PEEK, and all
records but the first byte's, are read at the completion, and a POKE's bytes stored there or at the cut (log entry 17); an
opaque frame leaves the RAM as it was (log entry 32). -/
def Obligations.StartedAccessRunsOrIsCut : Prop :=
  ∀ (s : State) (acc : Access), s.phase = .running → s.path.access = some acc → acc.phase = .inFlight →
    (acc.kind = .poke → acc.data.length = acc.count →
      exec .serviceAccessComplete s = .next
        (State.afterAccess
          { s with
            ram := writeRamBytes (startAddress acc.addr) acc.data s.ram
            link := { s.link with toRam := s.blocks.storeCode :: addressBytes acc.addr ++ acc.data, toRamCut := [] } }
          acc .ok 0 [0, BitVec.ofNat 8 acc.count])) ∧
    (acc.kind = .peek →
      ∃ bytes, exec .serviceAccessComplete s = .next
          (State.afterAccess
            { s with link := { s.link with toRam := s.blocks.fetchCode :: addressBytes acc.addr, toRamCut := [] } }
            acc .ok 0 (0 :: bytes)) ∧
        bytes.length = acc.count ∧
        ∀ i, i < acc.count →
          let a := startAddress acc.addr + BitVec.ofNat 17 i
          bytes[i]? = some (match pageOffset s.blocks.reportBase a with
            | some off =>
              if substituted s.blocks (reportPlace off).1 then
                ((acc.snaps.get (reportPlace off).1).getD (liveRecord s (reportPlace off).1)).getD (reportPlace off).2 0
              else readRam s.ram a.toNat
            | none => readRam s.ram a.toNat)) ∧
    (∀ (k : Nat) (code : Byte) (rest : List Byte) (ends : FrameEnd (List Bool)) (answer : RamAnswer), k < acc.count →
      code ≠ s.blocks.storeCode → code ≠ s.blocks.fetchCode →
      exec (.serviceAccessCollided k (code :: rest) ends answer) s =
        .next ((s.afterCut acc k).afterFrame (code :: rest) ends answer.bytes answer.cut)) ∧
    (∀ (k : Nat) (addr : BitVec 24) (data : List Byte) (ends : FrameEnd (List Bool)) (answer : RamAnswer), k < acc.count →
      exec (.serviceAccessCollided k (s.blocks.storeCode :: addressBytes addr ++ data) ends answer) s =
          exec (.storeFrame addr data ends) (s.afterCut acc k) ∧
        (s.blocks.fetchCode ≠ s.blocks.storeCode →
          exec (.serviceAccessCollided k (s.blocks.fetchCode :: addressBytes addr ++ data) ends answer) s =
            exec (.fetchFrame addr data.length { cut := ends.cut.length, again := ends.again }) (s.afterCut acc k))) ∧
    (1 ≤ acc.count → ∀ (addr : BitVec 24) (data : List Byte) (ends : FrameEnd (List Bool)) (n bits : Nat),
      ∃ k, k < acc.count ∧
        let t := { s.afterCut acc k with blocks := { s.blocks with draws := s.blocks.draws + 1 } }
        exec (.storeFrame addr data ends) s = exec (.storeFrame addr data ends) t ∧
          exec (.fetchFrame addr n { cut := bits, again := ends.again }) s =
            exec (.fetchFrame addr n { cut := bits, again := ends.again }) t)

/-! ## The six actions (R8, R10, R21 to R27) -/

/-- START (R22): what an accepted START clears and where it goes, with a run request; the drum spins up FWD at once if
it stands still with its stop confirmed, or finds its belt broken (R57). NOT_NOW in every other state but HELD, and with a
condition unmet. -/
def Obligations.StartBeginsACycle : Prop :=
  ∀ (s : State) (p : Pocket) (seq : Byte), s.CommitReady (.pocket p) 24 seq →
    let u := s.blocks.pocket p
    let mayStart := (u.cycle.state = .idle ∨ u.cycle.state = .done) ∧ s.blocks.doorClosed p = true ∧
      s.blocks.lintPresent p = true ∧ u.cycle.lockout = none ∧ s.blocks.lockoutConditions p = []
    let begun := s.blocks.modPocket p fun u =>
      { u with
        cycle :=
          { u.cycle with
            state := .starting, startTarget := some .drying, resume := none, elapsed := 0, th := 0, extension := 0
            cool := 0, creaseTimer := 0, creaseElapsed := 0, endFlag := none, freshness := s.blocks.freshSeconds }
        drum := { u.drum with tangles := 0, drag := 0, nextDir := .fwd, lastFault := none, request := .run }
        dryness := { u.dryness with wetness := 65535, gated := 0, hits := 0, windows := 0, streak := 0, lastHits := 0 } }
    (mayStart →
      s.SettlesAs (.start p seq) (s.afterCommit p seq 1 .accepted)
        (if s.blocks.spinsUp u.drum then begun.afterSpinUp p .fwd else begun)) ∧
      (¬mayStart → u.cycle.state ≠ .held → s.TurnsAway p seq .start)

/-- PAUSE (R23): a pocket in an active state goes to PAUSED with its resume state and a stop request, or, with a lockout
cause recorded or a lockout condition holding, to FAULTED (R41, R43); NOT_NOW in the other states but HELD. -/
def Obligations.PauseStopsTheCycle : Prop :=
  ∀ (s : State) (p : Pocket) (seq : Byte), s.CommitReady (.pocket p) 24 seq →
    let c := (s.blocks.pocket p).cycle
    let cause := s.blocks.causeAtEntry p
    let active := c.state = .starting ∨ c.state = .drying ∨ c.state = .extending ∨ c.state = .cooling
    (active → s.blocks.OneCause p →
      s.SettlesAs (.pause p seq) (s.afterCommit p seq 2 .accepted)
        (s.blocks.modPocket p fun u =>
          { u with
            cycle :=
              { u.cycle with
                state := if cause.isSome then .faulted else .paused
                resume :=
                  if cause.isSome then none else if c.state = .starting then c.startTarget else some c.state
                startTarget := none, lockout := cause, freshness := s.blocks.freshSeconds }
            drum := u.drum.askedToStop })) ∧
      (¬active → c.state ≠ .held → s.TurnsAway p seq .pause)

/-- RESUME (R24): STARTING with the resume state as its target and a run request; the drum, if it stands still with its
stop confirmed, spins up at once in its next direction, or FWD with REV_RUN 0, or finds its belt broken (R57). NOT_NOW
with a condition unmet and in every other state but HELD. -/
def Obligations.ResumeTakesTheCycleUp : Prop :=
  ∀ (s : State) (p : Pocket) (seq : Byte), s.CommitReady (.pocket p) 24 seq →
    let u := s.blocks.pocket p
    let mayResume := u.cycle.state = .paused ∧ s.blocks.doorClosed p = true ∧ s.blocks.lintPresent p = true ∧
      u.cycle.lockout = none ∧ s.blocks.lockoutConditions p = []
    let begun := s.blocks.modPocket p fun u =>
      { u with
        cycle :=
          { u.cycle with
            state := .starting, startTarget := u.cycle.resume, resume := none, freshness := s.blocks.freshSeconds }
        drum := { u.drum with request := .run } }
    (mayResume →
      s.SettlesAs (.resume p seq) (s.afterCommit p seq 3 .accepted)
        (if s.blocks.spinsUp u.drum then begun.afterSpinUp p (begun.pocket p).spinDirection else begun)) ∧
      (¬mayResume → u.cycle.state ≠ .held → s.TurnsAway p seq .resume)

/-- ADVANCE (R25): a pocket in DRYING or EXTENDING goes to COOLING with end flag ADVANCED, whatever it held, its
extension remaining and its drum as they are; NOT_NOW in every other state but HELD. -/
def Obligations.AdvanceGoesToCooling : Prop :=
  ∀ (s : State) (p : Pocket) (seq : Byte), s.CommitReady (.pocket p) 24 seq →
    let c := (s.blocks.pocket p).cycle
    (c.state = .drying ∨ c.state = .extending → s.blocks.OneCause p →
      s.SettlesAs (.advance p seq) (s.afterCommit p seq 4 .accepted)
        (s.blocks.modCycle p fun c =>
          { c with
            state := .cooling, startTarget := none, endFlag := some .advanced, lockout := s.blocks.causeAtEntry p
            freshness := s.blocks.freshSeconds })) ∧
      (c.state ≠ .drying → c.state ≠ .extending → c.state ≠ .held → s.TurnsAway p seq .advance)

/-- ABORT, by the state at the take (R26): from STARTING, DRYING and EXTENDING to COOLING with end flag ABORTED, a
lockout cause recorded where a condition holds at the entry (R41); in COOLING the end flag becomes ABORTED; from PAUSED and
CREASE_GUARD to IDLE with a stop request and end flag ABORTED; NOT_NOW in IDLE, DONE and FAULTED. -/
def Obligations.AbortIsAnsweredByState : Prop :=
  ∀ (s : State) (p : Pocket) (seq : Byte), s.CommitReady (.pocket p) 24 seq →
    let c := (s.blocks.pocket p).cycle
    let answers := s.SettlesAs (.abort p seq) (s.afterCommit p seq 5 .accepted)
    (c.state = .starting ∨ c.state = .drying ∨ c.state = .extending → s.blocks.OneCause p →
      answers (s.blocks.modCycle p fun c =>
        { c with
          state := .cooling, startTarget := none, endFlag := some .aborted, lockout := s.blocks.causeAtEntry p
          freshness := s.blocks.freshSeconds })) ∧
    (c.state = .cooling →
      answers (s.blocks.modCycle p fun c => { c with endFlag := some .aborted, freshness := s.blocks.freshSeconds })) ∧
    (c.state = .paused ∨ c.state = .creaseGuard →
      answers (s.blocks.modPocket p fun u =>
        { u with
          cycle :=
            { u.cycle with
              state := .idle, startTarget := none, resume := none, endFlag := some .aborted
              freshness := s.blocks.freshSeconds }
          drum := u.drum.askedToStop })) ∧
    (c.state = .idle ∨ c.state = .done ∨ c.state = .faulted → s.TurnsAway p seq .abort)

/-- CLEAR (R27): from DONE, and from FAULTED with the recorded cause gone, to IDLE with the cause removed and the end
flag kept; NOT_NOW with the cause not gone and in every other state but HELD. With no filtered temperature OVERHEAT
counts as gone, and with no cause recorded nothing stands in the way (log entry 21). -/
def Obligations.ClearReturnsToIdle : Prop :=
  ∀ (s : State) (p : Pocket) (seq : Byte), s.CommitReady (.pocket p) 24 seq →
    let u := s.blocks.pocket p
    let gone : Option Lockout → Prop
      | none => True
      | some .overheat => ∀ t, u.exhaust.filtered = some t → t < s.blocks.heatLimit - 20
      | some .highLimit => s.blocks.cutoutOpen p = false
      | some .sensor => u.exhaust.fault = none
      | some .stale => True
      | some .drum => s.blocks.beltBroken p = false ∧ u.drum.state = .stopped ∧ u.drum.confirmed = true
    let mayClear := u.cycle.state = .done ∨ (u.cycle.state = .faulted ∧ gone u.cycle.lockout)
    (mayClear →
      s.SettlesAs (.clear p seq) (s.afterCommit p seq 6 .accepted)
        (s.blocks.modCycle p fun c =>
          { c with
            state := .idle, lockout := if c.state = .done then c.lockout else none
            freshness := s.blocks.freshSeconds })) ∧
      (¬mayClear → u.cycle.state ≠ .held → s.TurnsAway p seq .clear)

/-- In HELD every action is answered HELD and changes nothing but the freshness that the take reloads; a code above 6
is answered ILLEGAL in every state; both raise TAKE (R10, R21, R48). The code 0, NONE, is answered NONE in every state, HELD
included, and changes nothing but that freshness, without TAKE (R8, R21). -/
def Obligations.HeldAndIllegalActionsChangeNothing : Prop :=
  ∀ (s : State) (p : Pocket) (seq : Byte), s.CommitReady (.pocket p) 24 seq →
    let b := (s.blocks.modCycle p fun c => { c with freshness := s.blocks.freshSeconds }).withPending 0x4000
    ((s.blocks.pocket p).cycle.state = .held →
      ∀ a : Action, s.SettlesAs (a.command p seq) (s.afterCommit p seq a.code .held) b) ∧
    (∀ code : Byte, 6 < code.toNat →
      s.SettlesAs (.storeFrame (s.demandAddress (recordOffset (.pocket p))) [seq, code] .clean)
        (s.afterCommit p seq code .illegal) b) ∧
    s.SettlesAs (.storeFrame (s.demandAddress (recordOffset (.pocket p))) [seq, 0] .clean) (s.afterCommit p seq 0 .none)
      (s.blocks.modCycle p fun c => { c with freshness := s.blocks.freshSeconds })

/-! ## The alert controller (R152 to R157) -/

/-- Raising a cause (R152, R156): one that is pending already changes nothing; one that is not becomes pending, and a
fault cause makes the list's newest entry, with the next serial and the pocket's state and elapsed drying seconds as
they stand, the oldest entry giving way in a list of sixteen. -/
def Obligations.RaisedCauseIsLogged : Prop :=
  ∀ (b : Blocks) (k : Cause), b.alerts.faults.length ≤ 16 →
    let a := b.alerts
    let entry : FaultEntry :=
      { serial := a.nextSerial, cause := k
        state := k.pocketOf.map fun p => (b.pocket p).cycle.state
        elapsed := match k.pocketOf with | some p => (b.pocket p).cycle.elapsed | none => 0 }
    b.raiseCause k =
      if inSet a.pending k then b
      else
        { b with alerts :=
          { a with
            pending := a.pending ||| k.bit
            faults :=
              if k.number < 12 then (if a.faults.length = 16 then a.faults.tail else a.faults) ++ [entry] else a.faults
            nextSerial := if k.number < 12 then a.nextSerial + 1 else a.nextSerial } }

/-- An acknowledgement (R153): the named causes leave the pending and the forced set, those in neither being passed over; of
those that stood in one, a level cause (HIGH_LIMIT_A, HIGH_LIMIT_B, SAG) whose condition is presented pends again, and makes
a new fault list entry (R156): in the order of their numbers, each with the next serial and the pocket's state and elapsed
drying seconds as they stand, the oldest entries giving way so that sixteen stand. ALERT_ACK (R9, R153; log entry 9) brings
this about and nothing more: the acknowledged bytes are in the RAM, the staged ones read 0. -/
def Obligations.AcknowledgementRemovesCauses : Prop :=
  (∀ (b : Blocks) (causes : BitVec 16), b.alerts.faults.length ≤ 16 →
     let a := b.alerts
     let again := causes &&& (a.pending ||| a.forced) &&& a.presented &&& 0x020C
     let pend := [Cause.highLimit .a, .highLimit .b, .sag].filter fun k => again.getLsbD k.number
     let entries := pend.zipIdx.map fun ki : Cause × Nat =>
       ({ serial := a.nextSerial + BitVec.ofNat 8 ki.2, cause := ki.1
          state := match ki.1 with | .highLimit p => some (b.pocket p).cycle.state | _ => none
          elapsed := match ki.1 with | .highLimit p => (b.pocket p).cycle.elapsed | _ => 0 } : FaultEntry)
     b.acknowledge causes =
       { b with alerts :=
         { a with
           pending := (a.pending &&& ~~~causes) ||| again, forced := a.forced &&& ~~~causes
           faults := (a.faults ++ entries).drop (a.faults.length + entries.length - 16)
           nextSerial := a.nextSerial + BitVec.ofNat 8 entries.length } }) ∧
  ∀ (s : State) (causes : BitVec 16) (seq : Byte), s.CommitReady .common 8 seq →
    let a := s.blocks.alerts
    let st := s.path.stagingCommon
    let addr := s.demandAddress 0x80
    let staged := [st.bytes.getD 0 0] ++ toLe 2 a.enabled.toNat ++ [0, 0] ++
      [BitVec.ofNat 8 s.blocks.load.supplyLimit, if s.service.permit then 1 else 0, 0]
    let t := s.afterFrame (s.blocks.storeCode :: addressBytes addr ++ [seq]) .clean [] []
    s.SettlesAs (.alertAck causes seq)
      (fun b => { t with
        blocks := b
        ram := writeRam (startAddress addr).toNat seq
          (writeRamBytes (startAddress (s.demandAddress 0x83)) (toLe 2 causes.toNat) s.ram)
        path := { t.path with
          stagingCommon := { bytes := staged, touched := List.replicate 8 false, lastSeq := seq }
          resultCommon := { seq := seq, action := .none, clamped := 0, torn := 0, refused := 0 } } })
      (s.blocks.acknowledge causes)

/-- FAULT_LIST_CLEAR (R9, R157): 1 empties the fault list and 0 does not, the next serial standing; any other value is
refused, and TAKE raised. The staged byte then reads 0. -/
def Obligations.FaultListIsCleared : Prop :=
  ∀ (s : State) (v seq : Byte), s.CommitReady .common 8 seq →
    let a := s.blocks.alerts
    let st := s.path.stagingCommon
    let addr := s.demandAddress 0x80
    let staged := [st.bytes.getD 0 0] ++ toLe 2 a.enabled.toNat ++ [0, 0] ++
      [BitVec.ofNat 8 s.blocks.load.supplyLimit, if s.service.permit then 1 else 0, 0]
    let t := s.afterFrame (s.blocks.storeCode :: addressBytes addr ++ [seq]) .clean [] []
    s.SettlesAs (.faultListClear v seq)
      (fun b => { t with
        blocks := b
        ram := writeRam (startAddress addr).toNat seq (writeRam (startAddress (s.demandAddress 0x87)).toNat v s.ram)
        path := { t.path with
          stagingCommon := { bytes := staged, touched := List.replicate 8 false, lastSeq := seq }
          resultCommon :=
            { seq := seq, action := .none, clamped := 0, torn := 0, refused := if 1 < v.toNat then 0x10 else 0 } } })
      (if v = 1 then { s.blocks with alerts := { a with faults := [] } }
        else if v = 0 then s.blocks else s.blocks.withPending 0x4000)

/-! ## The timed events of a pocket (R31 to R45) -/

/-- TIME_LIMIT_REACHED and EXTENSION_END take a heating pocket to COOLING (R31, R33, R34): with CONFIRMED_DRY from
EXTENDING, from DRYING with TIMED_END in TIMED and LIMIT_REACHED in AUTO; extension remaining and the drum are as they
were. -/
def Obligations.DryingEndsInCooling : Prop :=
  ∀ (s : State) (p : Pocket), s.phase = .running → s.blocks.OneCause p →
    let u := s.blocks.pocket p
    let cools := fun flag : EndFlag => s.blocks.modCycle p fun c =>
      { c with state := .cooling, startTarget := none, endFlag := some flag, lockout := s.blocks.causeAtEntry p }
    (u.tuning.timeLimit * 60 ≤ u.cycle.elapsed → u.cycle.state = .drying →
      s.SettlesTo (.timeLimitReached p) (cools (if u.tuning.mode = 1 then .timedEnd else .limitReached))) ∧
    (u.tuning.timeLimit * 60 ≤ u.cycle.elapsed → u.cycle.state = .extending →
      s.SettlesTo (.timeLimitReached p) (cools .confirmedDry)) ∧
    (u.cycle.state = .extending → u.cycle.extension = 0 → s.SettlesTo (.extensionEnd p) (cools .confirmedDry))

/-- Cooling ends by time and by temperature (R35): at COOL_TIME_EXPIRY with cool elapsed seconds at COOL_TIME × 60 or
above, and at an exhaust update, here of a channel with a good sample and no overheat newly holding, at or below
max(COOL_SET, filtered inlet + 20), or COOL_SET while the inlet is FAULTED or has no filtered temperature. Cool end
goes to the first next state of R36's table, each with a stop request: FAULTED, IDLE, CREASE_GUARD with both its
counts 0 and next direction FWD (R37, R56), or DONE with the pocket's DONE cause raised. -/
def Obligations.CoolingEndsByTheTable : Prop :=
  (∀ (s : State) (p : Pocket), s.phase = .running → (s.blocks.pocket p).cycle.state = .cooling →
     let u := s.blocks.pocket p
     let target : Int :=
       match s.blocks.inlet.fault, s.blocks.inlet.filtered with
       | none, some t => max (u.tuning.coolSet : Int) (t + 20)
       | _, _ => u.tuning.coolSet
     (u.tuning.coolTime * 60 ≤ u.cycle.cool → s.SettlesTo (.coolTimeExpiry p) (s.blocks.coolEnd p)) ∧
     ∀ raw : BitVec 10, 8 ≤ raw.toNat → raw.toNat ≤ 1015 → u.exhaust.fault = none →
       let t := translate s.blocks.working raw.toNat
       let ring := if u.exhaust.ring = [] then [t, t, t, t] else u.exhaust.ring.drop 1 ++ [t]
       let filtered := ring.sum.fdiv 4
       let updated := (s.blocks.modPocket p fun u =>
         { u with exhaust := { u.exhaust with
           lastRaw := raw.toNat, bad := 0, ring := ring, translated := some t, filtered := some filtered } }).evaluateWants p
       (filtered < s.blocks.heatLimit ∨ s.blocks.overheat p = true) →
       s.SettlesAs (.temperatureSample (.exhaust p) raw)
         (fun b => { s with blocks := b, pins := s.pins.setThermistor (.exhaust p) raw })
         (if filtered ≤ target then updated.coolEnd p else updated)) ∧
  ∀ (b : Blocks) (p : Pocket),
    let u := b.pocket p
    let goes := fun (f : Cycle → Cycle) => b.modPocket p fun u => { u with cycle := f u.cycle, drum := u.drum.askedToStop }
    (u.cycle.lockout.isSome →
      b.coolEnd p = goes fun c => { c with state := .faulted, startTarget := none, resume := none }) ∧
    (u.cycle.lockout = none → u.cycle.endFlag = some .aborted →
      b.coolEnd p = goes fun c => { c with state := .idle, startTarget := none, resume := none }) ∧
    (u.cycle.lockout = none → u.cycle.endFlag ≠ some .aborted → u.tuning.crease = 1 → b.lockoutConditions p = [] →
      b.coolEnd p = b.modPocket p fun u =>
        { u with
          cycle := { u.cycle with state := .creaseGuard, creaseTimer := 0, creaseElapsed := 0 }
          drum := { u.drum.askedToStop with nextDir := .fwd } }) ∧
    (u.cycle.lockout = none → u.cycle.endFlag ≠ some .aborted → u.tuning.crease ≠ 1 →
      b.coolEnd p = (goes fun c => { c with state := .done }).withPending (1#16 <<< (Cause.done p).number))

/-- CREASE_BURST and CREASE_GUARD_END (R37, R38): a burst is requested with the crease timer at 0 again, and spins the
drum up at once if it stands still with its stop confirmed, in its next direction (R57, R70); at 7200 s the guard ends in
DONE with a stop request and the DONE cause. -/
def Obligations.CreaseGuardBurstsAndEnds : Prop :=
  ∀ (s : State) (p : Pocket), s.phase = .running → (s.blocks.pocket p).cycle.state = .creaseGuard →
    let u := s.blocks.pocket p
    let begun := s.blocks.modPocket p fun u =>
      { u with cycle := { u.cycle with creaseTimer := 0 }, drum := { u.drum with request := .burst } }
    (300 ≤ u.cycle.creaseTimer → u.cycle.creaseElapsed < 7200 →
      s.SettlesTo (.creaseBurst p)
        (if s.blocks.spinsUp u.drum then begun.afterSpinUp p u.drum.nextDir else begun)) ∧
    (7200 ≤ u.cycle.creaseElapsed →
      s.SettlesTo (.creaseGuardEnd p)
        ((s.blocks.modPocket p fun u =>
          { u with cycle := { u.cycle with state := .done }, drum := u.drum.askedToStop }).withPending
            (1#16 <<< (Cause.done p).number)))

/-- FRESHNESS_EXPIRY (R45): freshness remaining is 0, STALE is raised with this pocket named, and the pocket answers by
the table of R41 if no lockout cause is recorded; with one recorded nothing more changes (R43). -/
def Obligations.StalePocketLocksOut : Prop :=
  ∀ (s : State) (p : Pocket), s.phase = .running → (s.blocks.pocket p).cycle.freshness = 1 →
    let c := (s.blocks.pocket p).cycle
    let running := c.state = .starting ∨ c.state = .drying ∨ c.state = .extending
    let standing := c.state = .paused ∨ c.state = .creaseGuard
    let raised := (s.blocks.modCycle p fun c => { c with freshness := 0 }).raiseCause (.stale p)
    let expires := s.SettlesTo (.freshnessExpiry p)
    (c.lockout.isSome → running ∨ c.state = .cooling ∨ standing → expires raised) ∧
    (c.lockout = none → running →
      expires (raised.modCycle p fun c =>
        { c with lockout := some .stale, state := .cooling, startTarget := none })) ∧
    (c.lockout = none → c.state = .cooling →
      expires (raised.modCycle p fun c => { c with lockout := some .stale })) ∧
    (c.lockout = none → standing →
      expires (raised.modPocket p fun u =>
        { u with
          cycle := { u.cycle with lockout := some .stale, state := .faulted, startTarget := none, resume := none }
          drum := u.drum.askedToStop }))

/-! ## The drum drive (R51 to R70) -/

/-- TACH_PULSE, what it measures (R53, R54): the reference is the time of the pulse, the silence timer restarts,
stopped-confirmed is cleared; from a reference the period in whole 100 µs units, kept within 1..65535, and the speed
600000 / P truncated and capped at 255 rpm; without one period and speed stand. Stated where the pulse is not judged: in
STOPPED and COAST, without a reference, and in SPINUP below SPEED_LOW. The pulse is found at a sample of its input, whose
pin level has changed to the one the edge setting names (R137, R144; log entry 45). A drum whose TACH function no input
carries gets no pulse (R142), nor is one found before the second sample after a reset or within 100 µs of the last (R144);
that the second sample stands 200 µs after step 5 is the model's choice (log entry 39). -/
def Obligations.PulseSetsPeriodAndSpeed : Prop :=
  ∀ (s : State) (p : Pocket), s.phase = .running →
    let d := (s.blocks.pocket p).drum
    let period := fun ref : Nat => max 1 (min 65535 ((s.blocks.clock - ref) / 100))
    let speed := fun ref : Nat => min 255 (600000 / period ref)
    (∀ i, carrier s.blocks.working (.tach p) = some i → s.PulseTime p →
      (∀ ref, d.reference = some ref →
        d.state = .stopped ∨ d.state = .coast ∨
          (d.state = .spinup ∧ speed ref < (s.blocks.pocket p).tuning.speedLow)) →
      s.PulseSettles p i
        (s.blocks.modDrum p fun d =>
          { d with
            reference := some s.blocks.clock, silence := 0, confirmed := false
            period := match d.reference with | some ref => period ref | none => d.period
            speed := match d.reference with | some ref => speed ref | none => d.speed })) ∧
    (carrier s.blocks.working (.tach p) = none ∨ ¬s.PulseTime p → exec (.tachPulse p) s = .next s)

/-- A pulse in SPINUP that sets a speed of SPEED_LOW or more takes the drum to RUN with its run timer and drag streak
at 0; under RUN a pocket in STARTING goes to its start target (R30, R58), and from DRYING or EXTENDING on to COOLING
where the time limit stands reached (R31); here with no lockout condition holding. A run of length 0 then ends in the same
event, the drum coasting and the next direction flipped (R72). Pulses in RUN (R61, R62): at SPEED_LOW or above the drag
streak is 0; below it the streak rises; the third slow pulse is a tangle event: the drum coasts, the next direction is
flipped as at the end of a run on schedule, a burst leaves STOP held, and the tangle count rises, at most to 4; at 4 TANGLE
is raised and a pocket in DRYING, EXTENDING or COOLING pauses as R23 gives (R40), or, with a lockout cause recorded or a
lockout condition holding, goes to FAULTED (R41, R43). Each pulse is found at a sample of its input, from the second after a
reset on and 100 µs after the last pulse (R144; log entries 39 and 45). -/
def Obligations.JudgedPulsesReachRunOrTangle : Prop :=
  (∀ (s : State) (p : Pocket) (ref i : Nat), s.phase = .running → carrier s.blocks.working (.tach p) = some i →
     s.PulseTime p →
     let u := s.blocks.pocket p
     let period := max 1 (min 65535 ((s.blocks.clock - ref) / 100))
     let speed := min 255 (600000 / period)
     let drum := { u.drum with
       state := .run, reference := some s.blocks.clock, silence := 0, confirmed := false, period := period
       speed := speed, runTimer := 0, drag := 0 }
     let ended :=
       if runLength u.tuning drum = some 0 then
         { drum with
           state := .coast, coastTimer := 0, silence := 0, nextDir := if u.tuning.revRun = 0 then .fwd else drum.dir.flip }
       else drum
     let limited := u.tuning.timeLimit * 60 ≤ u.cycle.elapsed
     let cycle : Cycle :=
       if u.drum.request = .run ∧ u.cycle.state = .starting then
         match u.cycle.startTarget.getD .drying with
         | .drying =>
           if limited then
             { u.cycle with
               state := .cooling, startTarget := none
               endFlag := some (if u.tuning.mode = 1 then .timedEnd else .limitReached) }
           else { u.cycle with state := .drying, startTarget := none }
         | .extending =>
           if limited then { u.cycle with state := .cooling, startTarget := none, endFlag := some .confirmedDry }
           else { u.cycle with state := .extending, startTarget := none }
         | target => { u.cycle with state := target, startTarget := none }
       else u.cycle
     u.drum.state = .spinup → u.drum.reference = some ref → u.tuning.speedLow ≤ speed →
     s.blocks.lockoutConditions p = [] →
     s.PulseSettles p i (s.blocks.modPocket p fun u => { u with drum := ended, cycle := cycle })) ∧
  ∀ (s : State) (p : Pocket) (ref i : Nat), s.phase = .running → carrier s.blocks.working (.tach p) = some i →
    s.PulseTime p →
    let u := s.blocks.pocket p
    let period := max 1 (min 65535 ((s.blocks.clock - ref) / 100))
    let speed := min 255 (600000 / period)
    let drum := { u.drum with
      reference := some s.blocks.clock, silence := 0, confirmed := false, period := period, speed := speed }
    let tangled := s.blocks.modDrum p fun d =>
      { drum with
        state := .coast, coastTimer := 0, drag := 0, tangles := min 4 (d.tangles + 1)
        request := if d.request = .burst then .stop else d.request
        nextDir := if d.request ≠ .burst ∧ u.tuning.revRun = 0 then .fwd else d.dir.flip }
    u.drum.state = .run → u.drum.reference = some ref →
    (u.tuning.speedLow ≤ speed → s.PulseSettles p i (s.blocks.modDrum p fun _ => { drum with drag := 0 })) ∧
    (speed < u.tuning.speedLow → u.drum.drag < 2 →
      s.PulseSettles p i (s.blocks.modDrum p fun d => { drum with drag := d.drag + 1 })) ∧
    (speed < u.tuning.speedLow → 2 ≤ u.drum.drag → u.drum.tangles < 3 → s.PulseSettles p i tangled) ∧
    (speed < u.tuning.speedLow → 2 ≤ u.drum.drag → 3 ≤ u.drum.tangles →
      u.cycle.state ≠ .drying → u.cycle.state ≠ .extending → u.cycle.state ≠ .cooling →
      s.PulseSettles p i (tangled.raiseCause (.tangle p))) ∧
    (speed < u.tuning.speedLow → 2 ≤ u.drum.drag → 3 ≤ u.drum.tangles →
      u.cycle.state = .drying ∨ u.cycle.state = .extending ∨ u.cycle.state = .cooling → s.blocks.OneCause p →
      let cause := s.blocks.causeAtEntry p
      s.PulseSettles p i
        ((tangled.raiseCause (.tangle p)).modPocket p fun u =>
          { u with
            cycle :=
              { u.cycle with
                state := if cause.isSome then .faulted else .paused
                resume := if cause.isSome then none else some u.cycle.state
                startTarget := none, lockout := cause }
            drum := { u.drum with request := .stop } }))

/-- SILENCE_EXPIRY, where it finds no stall (R55): speed 0, the reference discarded, the timer at 3000 ms; with the motor
off stopped-confirmed is set, on which a STOPPED drum under RUN or BURST spins up (R57), and a COAST whose pause has passed
ends in STOPPED, where a chord that qualifies is judged before the spin-up of the same event (R67, R146; log entry 14); in
SPINUP nothing more. -/
def Obligations.SilenceConfirmsTheStop : Prop :=
  ∀ (s : State) (p : Pocket), s.phase = .running → (s.blocks.pocket p).drum.silence = 2999 →
    let u := s.blocks.pocket p
    let quiet := { u.drum with speed := 0, reference := none, silence := 3000 }
    let still := { quiet with confirmed := true }
    let stands := s.blocks.modDrum p fun _ => still
    let spins := s.blocks.spinsUp still && u.drum.request != .stop
    (u.drum.state = .spinup → s.SettlesTo (.silenceExpiry p) (s.blocks.modDrum p fun _ => quiet)) ∧
    (u.drum.state = .coast → u.drum.coastTimer < u.tuning.pause * 1000 → s.SettlesTo (.silenceExpiry p) stands) ∧
    (u.drum.state = .coast → u.tuning.pause * 1000 ≤ u.drum.coastTimer →
      s.SettlesTo (.silenceExpiry p) (stands.afterStopping p)) ∧
    (u.drum.state = .stopped →
      s.SettlesTo (.silenceExpiry p) (if spins then stands.afterSpinUp p u.spinDirection else stands))

/-- A drum fault and its answer (R42, R48, R63, R65, R67, R68): the motor goes off, STOP is held, the next direction
stays, the fault is recorded, DRUM is raised; the pocket goes to FAULTED (in HELD its hold-from state does) and the
lockout cause becomes DRUM if none is recorded. SPINUP_FAIL is found at 10000 ms in SPINUP, STALL at 3000 ms of silence in
RUN, NO_STOP at 15000 ms of a COAST without stopped-confirmed. -/
def Obligations.DrumFaultsAreAnswered : Prop :=
  let answer := fun c : Cycle =>
    let lockout := some (c.lockout.getD .drum)
    match c.state with
    | .held => { c with lockout := lockout, holdFrom := some .faulted, resume := none }
    | .faulted => { c with lockout := lockout }
    | _ => { c with lockout := lockout, state := .faulted, startTarget := none, resume := none }
  let faults := fun (b : Blocks) (p : Pocket) (drum : Drum) =>
    (b.raiseCause (.drum p)).modPocket p fun u => { u with cycle := answer u.cycle, drum := drum }
  (∀ (b : Blocks) (p : Pocket) (k : DrumFault),
    b.drumFault p k = faults b p { (b.pocket p).drum.askedToStop with lastFault := some k }) ∧
  ∀ (s : State) (p : Pocket), s.phase = .running →
    let d := (s.blocks.pocket p).drum
    (d.state = .spinup → d.spinTimer = 9999 →
      s.SettlesTo (.spinupFail p)
        (faults s.blocks p { d with
          spinTimer := 10000, state := .coast, coastTimer := 0, silence := 0, request := .stop
          lastFault := some .spinupFail })) ∧
    (d.state = .run → d.silence = 2999 →
      s.SettlesTo (.silenceExpiry p)
        (faults s.blocks p { d with
          speed := 0, reference := none, state := .coast, coastTimer := 0, silence := 0, request := .stop
          lastFault := some .stall })) ∧
    (d.state = .coast → d.coastTimer = 14999 → d.confirmed = false →
      s.SettlesTo (.noStop p)
        (faults s.blocks p { d with coastTimer := 15000, request := .stop, lastFault := some .noStop }))

/-- RUN_END (R59, R70): at the run length, by held request, direction and REV_RUN, the drum coasts with its next direction
flipped, or FWD after a cycle run with REV_RUN 0; the end of a burst holds STOP. A forward cycle run with REV_RUN 0 has no
end on schedule. COAST_END (R57, R67): a COAST whose pause has passed with its stop confirmed ends in STOPPED, the
reference discarded; a chord that qualifies is judged at that change, and a panel stop reaches both pockets where its
timer stands at the threshold that then is in effect (R49, R146, R147); under RUN or BURST the drum spins up in the same
event, after the chord, which is the model's choice (log entry 14). -/
def Obligations.RunsAndCoastsEnd : Prop :=
  (∀ (s : State) (p : Pocket), s.phase = .running → (s.blocks.pocket p).drum.state = .run →
     let u := s.blocks.pocket p
     let seconds :=
       if u.drum.request = .burst then 20 else if u.drum.dir = .fwd then u.tuning.fwdRun else u.tuning.revRun
     let endless := u.drum.request ≠ .burst ∧ u.drum.dir = .fwd ∧ u.tuning.revRun = 0
     (¬endless → seconds * 1000 ≤ u.drum.runTimer →
       s.SettlesTo (.runEnd p)
         (s.blocks.modDrum p fun d =>
           { d with
             state := .coast, coastTimer := 0, silence := 0
             request := if d.request = .burst then .stop else d.request
             nextDir := if d.request ≠ .burst ∧ u.tuning.revRun = 0 then .fwd else d.dir.flip })) ∧
     (endless → exec (.runEnd p) s = .next s)) ∧
  ∀ (s : State) (p : Pocket), s.phase = .running →
    let u := s.blocks.pocket p
    u.drum.state = .coast → u.drum.confirmed = true → u.tuning.pause * 1000 ≤ u.drum.coastTimer →
    s.SettlesTo (.coastEnd p) (s.blocks.afterStopping p)

/-! ## Temperature channels and heater stages (R75 to R91) -/

/-- A good sample of a channel that is OK is translated through the table and enters the ring, which it fills if it was
empty; the filtered temperature is the floor of a quarter of the sum (R75, R76, R77). Stated for the inlet, and for an
exhaust whose update brings no overheat and ends no cooling, and at which the pocket's wants are evaluated (R87). -/
def Obligations.GoodSampleEntersTheRing : Prop :=
  ∀ (s : State) (ch : Sensor) (raw : BitVec 10), s.phase = .running → 8 ≤ raw.toNat → raw.toNat ≤ 1015 →
    (s.blocks.channel ch).fault = none →
    let c := s.blocks.channel ch
    let low := rowPoint s.blocks.working (raw.toNat / 64)
    let high := rowPoint s.blocks.working (raw.toNat / 64 + 1)
    let t := low + ((high - low) * (raw.toNat % 64 : Nat)).tdiv 64
    let ring := if c.ring = [] then [t, t, t, t] else c.ring.drop 1 ++ [t]
    let filtered := ring.sum.fdiv 4
    (∀ p, ch = .exhaust p →
      (filtered < s.blocks.heatLimit ∨ s.blocks.overheat p = true) ∧ (s.blocks.pocket p).cycle.state ≠ .cooling) →
    s.SettlesAs (.temperatureSample ch raw)
      (fun b => { s with blocks := b, pins := s.pins.setThermistor ch raw })
      (let updated := s.blocks.modChannel ch fun c =>
        { c with
          lastRaw := raw.toNat, bad := 0, ring := ring, translated := some t, filtered := some filtered }
      match ch with
      | .exhaust p => updated.evaluateWants p
      | .inlet => updated)

/-- An exhaust update that reaches OPT_HEAT_LIMIT from below it, or from no temperature, raises OVERHEAT, and the pocket
answers by the table of R41 (R77, R80): from STARTING, DRYING and EXTENDING it goes to COOLING, in COOLING the cause is
recorded, from PAUSED and CREASE_GUARD it goes to FAULTED with a stop request, in IDLE, DONE, FAULTED and HELD it records
no cause; with a cause recorded already nothing more changes (R43). The pocket's wants are evaluated (R87). In COOLING,
here, the new temperature ends no cooling. -/
def Obligations.OverheatIsRaisedAndLocksOut : Prop :=
  ∀ (s : State) (p : Pocket) (raw : BitVec 10), s.phase = .running → 8 ≤ raw.toNat → raw.toNat ≤ 1015 →
    let u := s.blocks.pocket p
    let t := translate s.blocks.working raw.toNat
    let ring := if u.exhaust.ring = [] then [t, t, t, t] else u.exhaust.ring.drop 1 ++ [t]
    let exhaust := { u.exhaust with
      lastRaw := raw.toNat, bad := 0, ring := ring, translated := some t, filtered := some (ring.sum.fdiv 4) }
    let answers := fun updated : Blocks => s.SettlesAs (.temperatureSample (.exhaust p) raw)
      (fun b => { s with blocks := b, pins := s.pins.setThermistor (.exhaust p) raw }) (updated.evaluateWants p)
    u.exhaust.fault = none → s.blocks.overheat p = false → s.blocks.heatLimit ≤ ring.sum.fdiv 4 →
    (u.cycle.lockout = none → u.cycle.state = .starting ∨ u.cycle.state = .drying ∨ u.cycle.state = .extending →
      s.blocks.coolTarget p < ring.sum.fdiv 4 →
      answers ((s.blocks.raiseCause (.overheat p)).modPocket p fun u =>
        { u with
          exhaust := exhaust
          cycle := { u.cycle with lockout := some .overheat, state := .cooling, startTarget := none } })) ∧
    (u.cycle.lockout = none → u.cycle.state = .cooling → s.blocks.coolTarget p < ring.sum.fdiv 4 →
      answers ((s.blocks.raiseCause (.overheat p)).modPocket p fun u =>
        { u with exhaust := exhaust, cycle := { u.cycle with lockout := some .overheat } })) ∧
    (u.cycle.lockout = none → u.cycle.state = .paused ∨ u.cycle.state = .creaseGuard →
      answers ((s.blocks.raiseCause (.overheat p)).modPocket p fun u =>
        { u with
          exhaust := exhaust
          cycle := { u.cycle with lockout := some .overheat, state := .faulted, startTarget := none, resume := none }
          drum := u.drum.askedToStop })) ∧
    (u.cycle.lockout.isSome ∧ (u.cycle.state ≠ .cooling ∨ s.blocks.coolTarget p < ring.sum.fdiv 4) ∨
      u.cycle.state = .idle ∨ u.cycle.state = .done ∨ u.cycle.state = .faulted ∨ u.cycle.state = .held →
      answers ((s.blocks.raiseCause (.overheat p)).modPocket p fun u => { u with exhaust := exhaust }))

/-- Bad samples and recovery (R75, R78, R79): the first two bad samples in a row are counted; the third makes the channel
FAULTED with that sample's side and an empty ring, its temperatures kept, and for an exhaust raises SENSOR and locks the
pocket out by the table of R41, unless a cause is recorded already (R43); in FAULTED a bad sample restarts the good
streak, nine good ones are counted, and the tenth recovers the channel with its own temperature. The recovery of an
exhaust acts as any of its filtered updates: where the temperature newly reaches OPT_HEAT_LIMIT OVERHEAT is raised and the
pocket locked out (R80), the wants are evaluated (R87), and a pocket then in COOLING ends it at or below its cool target
(R35): that the overheat is answered first, and the cooling then compared by the same update, is an order of the model's
choice (log entry 12). The bad streak of a FAULTED channel stands at 0 from its first good sample on (log entry 22). -/
def Obligations.BadSamplesFaultAndGoodOnesRecover : Prop :=
  ∀ (s : State) (ch : Sensor) (raw : BitVec 10), s.phase = .running →
    let c := s.blocks.channel ch
    let good := 8 ≤ raw.toNat ∧ raw.toNat ≤ 1015
    let side : Side := if raw.toNat < 8 then .low else .high
    let t := translate s.blocks.working raw.toNat
    let answers := s.SettlesAs (.temperatureSample ch raw)
      (fun b => { s with blocks := b, pins := s.pins.setThermistor ch raw })
    let faulted : Channel := { c with lastRaw := raw.toNat, fault := some side, bad := 3, good := 0, ring := [] }
    (c.fault = none → ¬good → c.bad < 2 →
      answers (s.blocks.modChannel ch fun c => { c with lastRaw := raw.toNat, bad := c.bad + 1 })) ∧
    (c.fault = none → ¬good → 2 ≤ c.bad →
      (ch = .inlet → answers (s.blocks.modChannel ch fun _ => faulted)) ∧
      ∀ p, ch = .exhaust p →
        let k := (s.blocks.pocket p).cycle
        let locks := fun f : PocketUnit → PocketUnit =>
          answers ((s.blocks.raiseCause (.sensor p)).modPocket p fun u => f { u with exhaust := faulted })
        (k.lockout = none → k.state = .starting ∨ k.state = .drying ∨ k.state = .extending →
          locks fun u =>
            { u with cycle := { u.cycle with lockout := some .sensor, state := .cooling, startTarget := none } }) ∧
        (k.lockout = none → k.state = .cooling →
          locks fun u => { u with cycle := { u.cycle with lockout := some .sensor } }) ∧
        (k.lockout = none → k.state = .paused ∨ k.state = .creaseGuard →
          locks fun u =>
            { u with
              cycle := { u.cycle with lockout := some .sensor, state := .faulted, startTarget := none, resume := none }
              drum := u.drum.askedToStop }) ∧
        (k.lockout.isSome ∨ k.state = .idle ∨ k.state = .done ∨ k.state = .faulted ∨ k.state = .held →
          locks id)) ∧
    (c.fault.isSome → ¬good →
      answers (s.blocks.modChannel ch fun c => { c with lastRaw := raw.toNat, good := 0, fault := some side })) ∧
    (c.fault.isSome → good → c.good < 9 →
      answers (s.blocks.modChannel ch fun c => { c with lastRaw := raw.toNat, bad := 0, good := c.good + 1 })) ∧
    (c.fault.isSome → good → 9 ≤ c.good →
      let ring := if c.ring = [] then [t, t, t, t] else c.ring.drop 1 ++ [t]
      let te := ring.sum.fdiv 4
      let updated := s.blocks.modChannel ch fun c =>
        { c with
          lastRaw := raw.toNat, fault := none, bad := 0, good := 0, ring := ring, translated := some t
          filtered := some te }
      (c.ring = [] → te = t) ∧ (ch = .inlet → answers updated) ∧
      ∀ p, ch = .exhaust p →
        let locked :=
          if s.blocks.heatLimit ≤ te ∧ s.blocks.overheat p = false then
            (updated.raiseCause (.overheat p)).modPocket p (PocketUnit.lockedOut .overheat)
          else updated
        let wanted := locked.evaluateWants p
        answers
          (if (wanted.pocket p).cycle.state = .cooling ∧ te ≤ wanted.coolTarget p then wanted.coolEnd p else wanted))

/-- The wants after an exhaust update at Te (R86, R87): a stage whose HEAT_LEVEL need is not met is not wanted; one whose
need is met is wanted at its lower edge or below, not wanted at its upper edge or above, and keeps its want between. Stage
2's band lies STAGE2_OFFSET below stage 1's. Wherever the wants are evaluated (`evaluateWants`) they come to this, with no
filtered temperature they stand, and nothing else changes. -/
def Obligations.WantsFollowTheBands : Prop :=
  (∀ (s : State) (p : Pocket) (raw : BitVec 10), s.phase = .running → 8 ≤ raw.toNat → raw.toNat ≤ 1015 →
    (s.blocks.pocket p).exhaust.fault = none →
    ∃ t, exec (.temperatureSample (.exhaust p) raw) s = .next t ∧ (t.blocks.pocket p).exhaust.filtered.isSome ∧
      ∀ te, (t.blocks.pocket p).exhaust.filtered = some te →
      let f := (s.blocks.pocket p).tuning
      let want := fun (met : Prop) (upper : Int) (before after : Bool) =>
        (¬met → after = false) ∧ (met → te ≤ upper - f.heatBand → after = true) ∧
          (met → upper - f.heatBand < te → upper ≤ te → after = false) ∧
          (met → upper - f.heatBand < te → te < upper → after = before)
      want (1 ≤ f.heatLevel) f.heatSet (s.blocks.pocket p).stage1.want (t.blocks.pocket p).stage1.want ∧
        want (2 ≤ f.heatLevel) (f.heatSet - f.stage2Offset) (s.blocks.pocket p).stage2.want
          (t.blocks.pocket p).stage2.want) ∧
  ∀ (b : Blocks) (p : Pocket),
    let u := b.pocket p
    let f := u.tuning
    ∃ want₁ want₂,
      b.evaluateWants p = b.modPocket p (fun u =>
        { u with stage1 := { u.stage1 with want := want₁ }, stage2 := { u.stage2 with want := want₂ } }) ∧
      (u.exhaust.filtered = none → want₁ = u.stage1.want ∧ want₂ = u.stage2.want) ∧
      ∀ te, u.exhaust.filtered = some te →
        let want := fun (met : Prop) (upper : Int) (before after : Bool) =>
          (¬met → after = false) ∧ (met → te ≤ upper - f.heatBand → after = true) ∧
            (met → upper - f.heatBand < te → upper ≤ te → after = false) ∧
            (met → upper - f.heatBand < te → te < upper → after = before)
        want (1 ≤ f.heatLevel) f.heatSet u.stage1.want want₁ ∧
          want (2 ≤ f.heatLevel) (f.heatSet - f.stage2Offset) u.stage2.want want₂

/-- The timed events of the stages and the load share unit (R89, R98, R101 to R103): DWELL_END makes its stage OFF, its
timer at 5000 ms, and the event ends with it requested if it is wanted and permitted; START_ALLOWANCE_END makes the
allowance idle and PACING_TIMER_EXPIRY takes the timer to 250 ms, both judging the head; NOT_BEFORE_EXPIRY removes the
entry's not-before time, the queue's order and the other entries standing. Each event ends on these blocks (R83, R101,
R105). -/
def Obligations.LoadTimersEnd : Prop :=
  ∀ s : State, s.phase = .running → s.blocks.ListsAgree →
    (∀ st, (s.blocks.stage st).state = .dwell → (s.blocks.stage st).dwell = 4999 →
      s.SettlesTo (.dwellEnd st) (s.blocks.modStage st fun g => { g with state := .off, dwell := 5000, ended := true }) ∧
        ∀ t, exec (.dwellEnd st) s = .next t → (t.blocks.stage st).state ≠ .dwell ∧
          (t.blocks.stage st).ended = true ∧
          ((t.blocks.stage st).state = .off ↔
            ¬((t.blocks.stage st).want = true ∧ (t.blocks.pocket (stagePocket st)).permission = true))) ∧
    (∀ p, s.blocks.load.allowance p = some 1 →
      s.SettlesTo (.startAllowanceEnd p) { s.blocks with load := s.blocks.load.setAllowance p none }) ∧
    (s.blocks.load.pacing = 249 →
      s.SettlesTo .pacingTimerExpiry { s.blocks with load := { s.blocks.load with pacing := 250 } } ∧
        ∀ t, exec .pacingTimerExpiry s = .next t → t.blocks.load.pacing = 250 ∨ t.blocks.load.pacing = 0) ∧
    ∀ st, { stage := st, notBefore := some 1 } ∈ s.blocks.load.queue →
      s.SettlesTo (.notBeforeExpiry st)
          { s.blocks with load := { s.blocks.load with
            queue := s.blocks.load.queue.map fun e => if e.stage = st then { e with notBefore := none } else e } } ∧
        ∀ t, exec (.notBeforeExpiry st) s = .next t → ∀ e ∈ t.blocks.load.queue, e.stage = st →
          e.notBefore = none

/-- A stage follows its want and its pocket's permission (R88, R89): an OFF stage that is called for becomes QUEUED and
joins the tail of the queue with no not-before time; a QUEUED or ON one that is not leaves its list for DWELL, its timer
at 0, or, where its dwell has ended at this very instant, is OFF again as if not requested, a grant of the instant undone
(R91; log entry 44); else it stays. A stage in DWELL stays there through the end of every event, its timer as it stands.
The end of an event (`Blocks.settle`) is this and nothing else: of pocket A and then of pocket B, permission and gate are
judged as the event has left their terms (R82, R83, R118), the wants being evaluated at a change of the permission (R87),
and stage 1 and stage 2 act; then grants are revoked (R105), and the head of the queue is judged (R101). That pocket A
comes before pocket B and every withdrawal before the revocations, where R83, R100 and R106 leave the order within an
event open, is the model's choice (log entry 11). The permission is R82's seven terms: the pocket in DRYING or EXTENDING,
its drum in RUN, no lockout cause recorded, its exhaust channel OK, its cutout input settled closed, its airflow input
active or none mapped, and no service hold; the gate is open in DRYING and EXTENDING with the drum in RUN at SPEED_LOW or
more (R118). -/
def Obligations.StagesFollowWantAndPermission : Prop :=
  (∀ (b : Blocks) (st : Stage),
    let u := b.stage st
    let called := u.want = true ∧ (b.pocket (stagePocket st)).permission = true
    let listed := u.state = .queued ∨ u.state = .on
    (u.state = .off → called →
      b.reconcileStage st =
        { b.modStage st (fun u => { u with state := .queued }) with
          load := { b.load with queue := b.load.queue ++ [{ stage := st, notBefore := none }] } }) ∧
    (listed → ¬called → u.ended = false →
      b.reconcileStage st =
        { b.modStage st (fun u => { u with state := .dwell, dwell := 0 }) with
          load :=
            { b.load with
              queue := b.load.queue.filter (fun e => e.stage ≠ st), grants := b.load.grants.filter (fun g => g ≠ st) } }) ∧
    (listed → ¬called → u.ended = true →
      b.reconcileStage st =
        { b.modStage st (fun u => { u with state := .off }) with
          load :=
            { b.load with
              queue := b.load.queue.filter (fun e => e.stage ≠ st), grants := b.load.grants.filter (fun g => g ≠ st)
              pacing := if u.state = .on then 250 else b.load.pacing } }) ∧
    ((u.state = .off ∧ ¬called) ∨ (listed ∧ called) ∨ u.state = .dwell → b.reconcileStage st = b) ∧
    (u.state = .dwell → b.ListsAgree →
      (b.settle.stage st).state = .dwell ∧ (b.settle.stage st).dwell = u.dwell)) ∧
  ∀ b : Blocks,
    let judged := fun (p : Pocket) (st₁ st₂ : Stage) (b : Blocks) =>
      let now := b.permissionHolds p
      let wanted := if (b.pocket p).permission = now then b else b.evaluateWants p
      ((wanted.modPocket p fun u =>
        { u with permission := now, dryness := { u.dryness with gateOpen := u.gateHolds } }).reconcileStage
          st₁).reconcileStage st₂
    b.settle = (judged .b .b1 .b2 (judged .a .a1 .a2 b)).revoke.judgeHead ∧
    ∀ p : Pocket,
      let u := b.pocket p
      let level := fun f => (carrier b.working f).map fun i => (b.input i).level
      let heating := (u.cycle.state = .drying ∨ u.cycle.state = .extending) ∧ u.drum.state = .run
      (b.permissionHolds p = true ↔
        heating ∧ u.cycle.lockout = none ∧ u.exhaust.fault = none ∧ level (.hilimit p) = some .active ∧
          (level (.airflow p) = none ∨ level (.airflow p) = some .active) ∧ b.held = false) ∧
      (u.gateHolds = true ↔ heating ∧ u.tuning.speedLow ≤ u.drum.speed)

/-! ## Grants, revocations, the mains (R99 to R113) -/

/-- The head of the queue is granted exactly if it fits, the pacing timer stands at 250 ms and it has no not-before time:
it leaves the queue for the tail of the grant list, becomes ON, and the timer restarts; a head that may not be granted
blocks the queue (R101, R102). A budget below the granted sum revokes from the newest grant on until the sum fits: the
revoked stages are a tail of the grant list, they head the queue in the order of their grants with 5000 ms of not-before
time, each is QUEUED, and no fewer would do (R90, R105). The budget (R96, R97, R99): a stage costs its byte of the row,
kept within 1 to 15 lu, and the granted sum is the sum of the costs in the grant list; the base budget is the lesser of
OPT_SUPPLY_MAX, at most 31 lu, and the supply limit; the effective budget is 0 lu while the mains is SAGGED or LOST, in
service hold and in OPTION_FAULT, and otherwise the base budget less OPT_START_COST, at most 15 lu, for each running start
allowance, floored at 0 lu. -/
def Obligations.QueueAndGrantsFollowTheBudget : Prop :=
  (∀ (b : Blocks) (e : QueueEntry) (rest : List QueueEntry), b.load.queue = e :: rest →
     if e.notBefore = none ∧ b.load.pacing = 250 ∧ b.cost e.stage + b.grantedSum ≤ b.effectiveBudget then
       b.judgeHead.load = { b.load with queue := rest, grants := b.load.grants ++ [e.stage], pacing := 0 } ∧
         (b.judgeHead.stage e.stage) = { b.stage e.stage with state := .on } ∧
         (∀ st, st ≠ e.stage → b.judgeHead.stage st = b.stage st) ∧ b.judgeHead.apartFromHeat = b.apartFromHeat
     else b.judgeHead = b) ∧
  ∀ b : Blocks, ∃ kept revoked, b.load.grants = kept ++ revoked ∧
    b.revoke.load =
      { b.load with
        grants := kept, queue := revoked.map (fun st => { stage := st, notBefore := some 5000 }) ++ b.load.queue } ∧
    b.costSum kept ≤ b.effectiveBudget ∧
    (∀ st more, revoked = st :: more → b.effectiveBudget < b.costSum (kept ++ [st])) ∧
    (∀ st, b.revoke.stage st = if st ∈ revoked then { b.stage st with state := .queued } else b.stage st) ∧
    b.revoke.apartFromHeat = b.apartFromHeat ∧
    (let byte := fun i => (b.working.getD i 0).toNat
     let within := fun i => max 1 (min 15 (byte i))
     let running := [b.load.allowanceA, b.load.allowanceB].countP Option.isSome
     (b.cost .a1 = within 0x09 ∧ b.cost .a2 = within 0x0A ∧ b.cost .b1 = within 0x0B ∧ b.cost .b2 = within 0x0C) ∧
     (∀ stages, b.costSum stages = (stages.map b.cost).sum) ∧ b.grantedSum = (b.load.grants.map b.cost).sum ∧
     b.baseBudget = min (min 31 (byte 0x08)) b.load.supplyLimit ∧
     (b.load.mains.state = .sagged ∨ b.load.mains.state = .lost ∨ b.held = true ∨ b.optionState = .optionFault →
       b.effectiveBudget = 0) ∧
     (b.load.mains.state = .normal → b.held = false → b.optionState = .valid →
       (b.effectiveBudget : Int) = max 0 ((b.baseBudget : Int) - min 15 (byte 0x0D) * running)))

/-- ZERO_CROSSING (R107, R109, R110, R112): one that follows the last qualified one by less than 4 ms only keeps the
greater peak; a qualified one sets the outputs by the grant list as it stands before the crossing is judged, an inference
of the model from R110's words on the revoked outputs and section 5.10, where R109 lists the judging first (log entry 13),
makes the peak of an open half-cycle the last amplitude and judges it, opens a half-cycle, and restarts peak and loss
timer. The fourth low amplitude in a row takes NORMAL to SAGGED with SAG presented, the sixteenth good one SAGGED to
NORMAL with SAG withdrawn; LOST becomes SAGGED. MAINS_LOST (R108, R111, R113): every output is de-energised at once, both
streaks and the kept peak are 0 with no half-cycle open, and SAG is presented from NORMAL, as it stands presented from
SAGGED. With OPT_RESTORE_LEVEL at or below OPT_SAG_LEVEL, which only an OPTION_FAULT leaves, that an amplitude between
them is low in NORMAL and good in SAGGED is the model's choice (log entry 37). -/
def Obligations.CrossingsAndLossJudgeTheMains : Prop :=
  (∀ (s : State) (peak : Byte), s.phase = .running →
     let l := s.blocks.load
     let m := l.mains
     let amp := max m.keptPeak peak.toNat
     let opened : Mains :=
       { m with halfOpen := true, keptPeak := 0, lossTimer := 0, crossedAt := s.blocks.clock, lastAmplitude := amp }
     let after := fun mains : Mains =>
       { s.blocks with load :=
         { l with
           outA1 := decide (Stage.a1 ∈ l.grants), outA2 := decide (Stage.a2 ∈ l.grants)
           outB1 := decide (Stage.b1 ∈ l.grants), outB2 := decide (Stage.b2 ∈ l.grants), mains := mains } }
     let crosses := s.SettlesTo (.zeroCrossing peak)
     let qualified := m.halfOpen = false ∨ m.crossedAt + 4000 ≤ s.blocks.clock
     let low := amp < s.blocks.sagLevel
     let high := s.blocks.restoreLevel ≤ amp
     (¬qualified →
       exec (.zeroCrossing peak) s =
         .next { s with blocks := { s.blocks with load := { l with mains := { m with keptPeak := amp } } } }) ∧
     (m.halfOpen = false → m.state ≠ .lost → crosses (after { opened with lastAmplitude := m.lastAmplitude })) ∧
     (qualified → m.state = .lost →
       crosses (after { opened with state := .sagged, restoreStreak := 0, lastAmplitude := m.lastAmplitude })) ∧
     (qualified → m.halfOpen = true → m.state = .normal →
       (¬low → crosses (after { opened with sagStreak := 0 })) ∧
       (low → m.sagStreak < 3 → crosses (after { opened with sagStreak := m.sagStreak + 1 })) ∧
       (low → 3 ≤ m.sagStreak →
         crosses ((after { opened with state := .sagged, sagStreak := 0, restoreStreak := 0 }).present .sag))) ∧
     (qualified → m.halfOpen = true → m.state = .sagged →
       (¬high → crosses (after { opened with restoreStreak := 0 })) ∧
       (high → m.restoreStreak < 15 → crosses (after { opened with restoreStreak := m.restoreStreak + 1 })) ∧
       (high → 15 ≤ m.restoreStreak →
         crosses ((after { opened with state := .normal, restoreStreak := 0 }).withdrawCause .sag)))) ∧
  ∀ s : State, s.phase = .running → s.blocks.load.mains.lossTimer = 39 →
    let lost : Blocks := { s.blocks with load :=
      { s.blocks.load with
        outA1 := false, outA2 := false, outB1 := false, outB2 := false
        mains :=
          { s.blocks.load.mains with
            state := .lost, sagStreak := 0, restoreStreak := 0, keptPeak := 0, halfOpen := false, lossTimer := 40 } } }
    s.SettlesTo .mainsLost (if s.blocks.load.mains.state = .normal then lost.present .sag else lost) ∧
      ∀ t, exec .mainsLost s = .next t → s.blocks.ListsAgree → t.blocks.load.grants = []

/-! ## The dryness unit (R117 to R129) -/

/-- ELECTRODE_SAMPLE (R117, R121 to R124, R127 to R129): a sample while the gate is closed is only kept; a gated one
is counted, a hit at WET_LEVEL or above; the 256th completes the window with its hits: W moves by (X − W) × α / 64
truncated toward zero, X being 256 × hits up to 65535; the streak rises with W at DRY_TARGET or below from the eighth
window on; at CONFIRM dry detection is reported with E = min(floor(Th × MARGIN / 256), 1800). A dry report (R32, R34):
in DRYING with AUTO the pocket goes to EXTENDING with extension E, or with E of 0 to COOLING, in both with
CONFIRMED_DRY; in any other state and in TIMED it changes nothing. -/
def Obligations.ElectrodeSamplesFillWindows : Prop :=
  (∀ (s : State) (p : Pocket) (v : BitVec 10), s.phase = .running →
     let u := s.blocks.pocket p
     let d := u.dryness
     let hits := d.hits + if u.tuning.wetLevel ≤ v.toNat then 1 else 0
     let w := ((d.wetness : Int) +
       (((min 65535 (256 * hits) : Nat) - (d.wetness : Int)) * (u.tuning.filterWeight : Int)).tdiv 64).toNat
     let windows := min 65535 (d.windows + 1)
     let streak := if windows < 8 ∨ u.tuning.dryTarget < w then 0 else min 15 (d.streak + 1)
     let next := fun b => { s with blocks := b, pins := s.pins.setElectrode p v }
     let completed := s.blocks.modDryness p fun d =>
       { d with
         lastSample := v.toNat, lastHits := hits, gated := 0, hits := 0, wetness := w, windows := windows
         streak := streak }
     (d.gateOpen = false →
       exec (.electrodeSample p v) s = .next (next (s.blocks.modDryness p fun d => { d with lastSample := v.toNat }))) ∧
     (d.gateOpen = true → d.gated < 255 →
       s.SettlesAs (.electrodeSample p v) next
         (s.blocks.modDryness p fun d => { d with lastSample := v.toNat, gated := d.gated + 1, hits := hits })) ∧
     (d.gateOpen = true → 255 ≤ d.gated →
       s.SettlesAs (.electrodeSample p v) next
         (if u.tuning.confirm ≤ streak then completed.dryReport p (min (u.cycle.th * u.tuning.margin / 256) 1800)
           else completed))) ∧
  ∀ (b : Blocks) (p : Pocket) (e : Nat),
    let u := b.pocket p
    (u.cycle.state = .drying → u.tuning.mode = 0 → b.causeAtEntry p = none →
      b.dryReport p e = b.modCycle p fun c =>
        { c with
          state := if e = 0 then .cooling else .extending, startTarget := if e = 0 then none else c.startTarget
          extension := e, endFlag := some .confirmedDry }) ∧
    (u.cycle.state ≠ .drying ∨ u.tuning.mode ≠ 0 → b.dryReport p e = b)

/-! ## Contact inputs and the stop chord (R139 to R147) -/

/-- DEBOUNCED_CHANGE of a door or a lint filter (R39, R139, R140): the pin has held its level for 20.0 ms, so the
debounced level is the logical one (R138); a door that opens, or a filter removed, pauses a pocket in an active state as
R23 gives; a door that opens takes CREASE_GUARD and DONE to IDLE with a stop request; a level that does not change, a
closing, a refitting and the first settling change no pocket. That the event sets pin, previous pin and stability timer to
those of the held level is the model's choice (log entry 47); no change is found sooner than 20.0 ms after sampling starts
(R140), the first sample standing 100 µs after step 5 by the model's choice (log entry 39). The input map (R141, R182): an
input acts as the function its entry's low four bits name, codes 1 to 12, if no lower-numbered input has that code, and as
CHORD by code 13; entry bit 4 makes it active-low (R138). How a door and a lint filter stand (R140, R142): closed and
present exactly while the input that carries them is ACTIVE, so that UNSETTLED, or carried by no input, they read open and
absent. -/
def Obligations.DoorsAndFiltersPauseThePocket : Prop :=
  (∀ (b : Blocks) (p : Pocket),
    let code := fun i => (b.working.getD (0x36 + i) 0).toNat % 16
    let carries := fun i k => i < 12 ∧ code i = k ∧ ∀ n, n < i → code n ≠ k
    let active := fun k => ∃ i, carries i k ∧ (b.input i).level = .active
    let functions : List (Nat × InputFunction) :=
      [(1, .door .a), (2, .door .b), (3, .lint .a), (4, .lint .b), (5, .hilimit .a), (6, .hilimit .b), (7, .belt .a),
       (8, .belt .b), (9, .airflow .a), (10, .airflow .b), (11, .tach .a), (12, .tach .b)]
    (∀ k f, (k, f) ∈ functions → (∀ i, i < 12 → (actingFunction b.working i = f ↔ carries i k)) ∧
      ∀ i, carrier b.working f = some i ↔ carries i k) ∧
    (∀ i, i < 12 → (actingFunction b.working i = .chord ↔ code i = 13)) ∧
    (∀ i high, logicalLevel b.working i high = if (b.working.getD (0x36 + i) 0).getLsbD 4 then !high else high) ∧
    (b.doorClosed p = true ↔ active (if p = .a then 1 else 2)) ∧
    (b.lintPresent p = true ↔ active (if p = .a then 3 else 4))) ∧
  (∀ (s : State) (i : Fin 12) (high : Bool), s.phase = .running → s.blocks.clock < 20100 →
    exec (.debouncedChange i high) s = .next s) ∧
  ∀ (s : State) (i : Fin 12) (high : Bool) (p : Pocket), s.phase = .running → 20100 ≤ s.blocks.clock →
    let b := s.blocks
    let u := b.input i.val
    let f := actingFunction b.working i.val
    let now : Level := if logicalLevel b.working i.val high = true then .active else .inactive
    let changed : Blocks := { b with contacts := { b.contacts with
      inputs := b.contacts.inputs.set i.val { pin := high, previous := high, stability := 200, level := now } } }
    let c := (b.pocket p).cycle
    let active := c.state = .starting ∨ c.state = .drying ∨ c.state = .extending ∨ c.state = .cooling
    let opens := u.level = .active ∧ now = .inactive
    let next := fun b => { s with blocks := b, pins := s.pins.setContact i high }
    let answers := s.SettlesAs (.debouncedChange i high) next
    let cause := changed.causeAtEntry p
    (u.level = now → exec (.debouncedChange i high) s = .next (next changed)) ∧
    (f = .door p ∨ f = .lint p → opens → active → changed.OneCause p →
      answers (changed.modPocket p fun u =>
        { u with
          cycle :=
            { u.cycle with
              state := if cause.isSome then .faulted else .paused
              resume := if cause.isSome then none else if c.state = .starting then c.startTarget else some c.state
              startTarget := none, lockout := cause }
          drum := u.drum.askedToStop })) ∧
    (f = .door p → opens → c.state = .creaseGuard ∨ c.state = .done →
      answers (changed.modPocket p fun u =>
        { u with
          cycle := { u.cycle with state := .idle, startTarget := none, resume := none }
          drum := u.drum.askedToStop })) ∧
    (u.level ≠ now →
      ((f = .door p ∨ f = .lint p) ∧ (¬opens ∨ c.state = .idle ∨ c.state = .paused ∨ c.state = .faulted ∨ c.state = .held)) ∨
        (f = .lint p ∧ ¬active) ∨ f = .airflow p ∨ f = .tach p ∨ f = .unused →
      answers changed)

/-- DEBOUNCED_CHANGE of a cutout, a belt or a chord button (R68, R81, R140, R145): a cutout that opens presents HIGH_LIMIT
and locks the pocket out by the table of R41, unless a cause is recorded already (R43), one that settles open only
presents it, one that closes withdraws it; a belt that breaks with the motor on is a BELT fault, which the pocket answers
as every drum fault; the chord begins to qualify when all its buttons are active and is INACTIVE again when one is not.
Stated from 20.1 ms after step 5 on, before which no change is found (R140; log entry 39); what the event sets in the
input is the model's choice (log entry 47). How the functions stand (R81, R82, R140, R142, R145): the cutout condition
holds unless the input that carries it is ACTIVE, also UNSETTLED and carried by no input; the belt shows broken only while
its input is INACTIVE, and reads intact UNSETTLED or carried by none; airflow is proven while its input is ACTIVE, not
proven UNSETTLED, and its term holds where none carries it; the chord is active while every input of code 13 is ACTIVE and
there is one. -/
def Obligations.CutoutBeltAndChordChangesAct : Prop :=
  (∀ (b : Blocks) (p : Pocket),
    let code := fun i => (b.working.getD (0x36 + i) 0).toNat % 16
    let carries := fun i k => i < 12 ∧ code i = k ∧ ∀ n, n < i → code n ≠ k
    let stands := fun k l => ∃ i, carries i k ∧ (b.input i).level = l
    let ofPocket := fun k : Nat => if p = .a then k else k + 1
    (b.cutoutOpen p = true ↔ ¬stands (ofPocket 5) .active) ∧ (b.beltBroken p = true ↔ stands (ofPocket 7) .inactive) ∧
    (b.airflowHolds p = true ↔ stands (ofPocket 9) .active ∨ ∀ i, i < 12 → code i ≠ ofPocket 9) ∧
    (b.chordActive = true ↔
      (∃ i, i < 12 ∧ code i = 13) ∧ ∀ i, i < 12 → code i = 13 → (b.input i).level = .active)) ∧
  ∀ (s : State) (i : Fin 12) (high : Bool) (p : Pocket), s.phase = .running → 20100 ≤ s.blocks.clock →
    let b := s.blocks
    let u := b.input i.val
    let f := actingFunction b.working i.val
    let now : Level := if logicalLevel b.working i.val high = true then .active else .inactive
    let changed : Blocks := { b with contacts := { b.contacts with
      inputs := b.contacts.inputs.set i.val { pin := high, previous := high, stability := 200, level := now } } }
    let c := (b.pocket p).cycle
    let answers := s.SettlesAs (.debouncedChange i high)
      fun b => { s with blocks := b, pins := s.pins.setContact i high }
    let chord := fun (st : ChordState) =>
      ({ changed with contacts := { changed.contacts with chord := st, chordTimer := 0 } } : Blocks)
    u.level ≠ now →
    (f = .hilimit p → now = .inactive → u.level = .active → c.lockout = none →
      c.state = .starting ∨ c.state = .drying ∨ c.state = .extending →
      answers ((changed.present (.highLimit p)).modCycle p fun c =>
        { c with lockout := some .highLimit, state := .cooling, startTarget := none })) ∧
    (f = .hilimit p → now = .inactive → u.level = .active → c.lockout = none → c.state = .cooling →
      answers ((changed.present (.highLimit p)).modCycle p fun c => { c with lockout := some .highLimit })) ∧
    (f = .hilimit p → now = .inactive → u.level = .active → c.lockout = none →
      c.state = .paused ∨ c.state = .creaseGuard →
      answers ((changed.present (.highLimit p)).modPocket p fun u =>
        { u with
          cycle := { u.cycle with lockout := some .highLimit, state := .faulted, startTarget := none, resume := none }
          drum := u.drum.askedToStop })) ∧
    (f = .hilimit p → now = .inactive →
      u.level = .unsettled ∨ c.lockout.isSome ∨ c.state = .idle ∨ c.state = .done ∨ c.state = .faulted ∨
        c.state = .held →
      answers (changed.present (.highLimit p))) ∧
    (f = .hilimit p → now = .active → answers (changed.withdrawCause (.highLimit p))) ∧
    (f = .belt p → now = .inactive → (b.pocket p).drum.motorOn = true → answers (changed.drumFault p .belt)) ∧
    (f = .belt p → now = .active ∨ (b.pocket p).drum.motorOn = false → answers changed) ∧
    (f = .chord →
      answers (match b.contacts.chord, changed.chordActive with
        | .inactive, true => chord .qualifying
        | .qualifying, false | .spent, false => chord .inactive
        | _, _ => changed))

/-- CHORD_QUALIFY (R49, R146, R147): at the threshold, 50 ms with both drums STOPPED and 2000 ms otherwise, the chord is
SPENT and a panel stop reaches both pockets: one in an active state, CREASE_GUARD or PAUSED goes at once to IDLE, or to
FAULTED with a lockout cause recorded, with a stop request; the others stay. -/
def Obligations.ChordStopsBothPockets : Prop :=
  ∀ s : State, s.phase = .running → s.blocks.contacts.chord = .qualifying →
    let b := s.blocks
    let threshold := if b.pocketA.drum.state = .stopped ∧ b.pocketB.drum.state = .stopped then 50 else 2000
    let stop := fun u : PocketUnit =>
      match u.cycle.state with
      | .idle | .done | .faulted | .held => u
      | _ =>
        { u with
          cycle :=
            { u.cycle with
              state := if u.cycle.lockout.isSome then .faulted else .idle, startTarget := none, resume := none }
          drum := u.drum.askedToStop }
    (threshold ≤ b.contacts.chordTimer →
      s.SettlesTo .chordQualify
        { b with
          contacts := { b.contacts with chord := .spent }, pocketA := stop b.pocketA, pocketB := stop b.pocketB }) ∧
    (b.contacts.chordTimer < threshold → exec .chordQualify s = .next s)

/-! ## The service line (R158 to R168) -/

/-- SYNC, SYNC_REPLY, LINE_ERROR and GAP_TIMEOUT (R159, R160, R162): a SYNC leads to SYNC_REPLY and a line error to
AWAIT_SYNC, from AWAIT_SYNC, from READY and of a low judged as begun in READY without any effect on the last result; in
RECEIVING, EXECUTING and ANSWERING they abandon the command, as the gap passing 1024 cycles does: TIMEOUT with count 0,
the command and its answer discarded, a waiting access withdrawn, one in flight and a nonvolatile write running on without
it. The reply ends in READY with the slot timer at 32. That the gap passing 1024 cycles within a low that began in READY,
RECEIVING with that low going on, abandons the code byte begun with TIMEOUT, though the low may turn out to be a SYNC's,
whose effect R160 gives with the last result as it stands, is the model's reading (log entry 41). In RECEIVING a low of
the first slot of a command code is judged as begun in READY (R159); that a SYNC request of such a low abandons nothing
also where another low began the slot is the model's reading too (log entry 51). -/
def Obligations.SyncErrorsAndGapsAbandon : Prop :=
  ∀ s : State, s.phase = .running →
    let u := s.service
    let inCommand := u.receiver = .receiving ∨ u.receiver = .executing ∨ u.receiver = .answering
    let abandoned := fun (r : Receiver) (u : ServiceUnit) =>
      { s with
        service :=
          { u with
            receiver := r, command := none, answer := none, bits := [], lastResult := .timeout, collided := 0
            resetDue := false, driveFor := 0, heldAccess := none, heldOption := none }
        path := { s.path with access :=
          match s.path.access with
          | some acc => if acc.phase = .inFlight then some { acc with owned := false } else none
          | none => none }
        nvWrite := s.nvWrite.map fun w => { w with owned := false } }
    let synced := fun u : ServiceUnit =>
      { u with receiver := .syncReply, command := none, answer := none, bits := [], replyTimer := 0 }
    (u.receiver = .awaitSync ∨ u.receiver = .ready ∨ (u.receiver = .receiving ∧ u.lowFromReady = true) →
      exec .sync s = .next { s with service := synced u }) ∧
    (inCommand → u.lowFromReady = false →
      exec .sync s = .next
        { abandoned .syncReply u with service := synced (abandoned .syncReply u).service }) ∧
    (u.receiver = .syncReply → exec .sync s = .next s) ∧
    (u.receiver = .syncReply → u.replyTimer = 111 →
      exec .syncReply s = .next { s with service := { u with receiver := .ready, slotTimer := 32, replyTimer := 112 } }) ∧
    (u.receiver = .ready ∨ (u.receiver = .receiving ∧ u.lowFromReady = true) →
      exec .lineError s = .next { s with service := { u with receiver := .awaitSync, command := none, bits := [] } }) ∧
    (inCommand → u.lowFromReady = false → exec .lineError s = .next (abandoned .awaitSync u)) ∧
    (u.receiver = .awaitSync ∨ u.receiver = .syncReply → exec .lineError s = .next s) ∧
    (inCommand → u.gapTimer = 1024 →
      exec .gapTimeout s = .next (abandoned .awaitSync { u with gapTimer := 1025 }))

/-- STATUS (R161, R163): executed in the event of its last bit; it answers held, permit, option state, last result and
collided byte count as they stand, in the codes of R180, and changes none of them. FORCE_ALERT, RESET_PART and an
unknown code (R154, R161, R163, R168): the causes join the forced set, and nothing is pending or logged for them;
RESET_PART is answered OK and the reset waits for the end of its answer; an unknown code is answered REFUSED in one
byte. -/
def Obligations.ShortCommandsAnswerAtOnce : Prop :=
  (∀ s : State, s.Takes [1] →
     let r : Byte :=
       match s.service.lastResult with
       | .ok => 0
       | .refused => 1
       | .collided => 2
       | .linkBusy => 3
       | .timeout => 4
     exec .status s = .next
       { s with
         service := (s.service.beginCommand [1]).answered s.service.lastResult s.service.collided
           [if s.blocks.held then 1 else 0, if s.service.permit then 1 else 0,
            if s.blocks.optionState = .valid then 0 else 1, r, BitVec.ofNat 8 s.service.collided] }) ∧
  ∀ (s : State) (causes : BitVec 16) (code : Byte),
    let force : List Byte := 8 :: toLe 2 causes.toNat
    (s.Takes force →
      exec (.forceAlert causes) s = .next
        { s with
          blocks := { s.blocks with alerts := { s.blocks.alerts with forced := s.blocks.alerts.forced ||| causes } }
          service := (s.service.beginCommand force).answered .ok 0 [0] }) ∧
    (s.Takes [9] →
      exec .resetPart s = .next { s with service := (s.service.beginCommand [9]).answered .ok 0 [0] }) ∧
    (s.Takes [code] → code.toNat < 1 ∨ 9 < code.toNat →
      exec (.unknownCommand code) s =
        .next { s with service := (s.service.beginCommand [code]).answered .refused 0 [1] })

/-- PEEK and POKE (R13, R161, R164): with a count of 1..16, and for a POKE in hold, the access goes to the arbiter, where
it starts at once with select inactive and waits otherwise; behind the access of an abandoned command that still stands
there the command waits (R162). Where the controller asserts select as the command is executed (log entry 42) it cuts such
an access that is in flight, after a number of bytes that is free (R14; log entry 4), and the new one finds the link busy.
A PEEK's freezing of its first byte's record at the start is the model's choice (log entry 17). A count out of range is
REFUSED in one byte for PEEK and two for POKE, and a POKE outside hold is REFUSED with count 0. -/
def Obligations.PeekAndPokeGoToTheArbiter : Prop :=
  ∀ (s : State) (addr : BitVec 24) (n : Byte) (data : List Byte) (busy : Bool),
    let peek : Access :=
      { kind := .peek, addr := addr, count := n.toNat, data := [], phase := .waiting 0, owned := true, snaps := .none }
    let poke := { peek with kind := .poke, data := data }
    let target : AccessTarget := { addr := addr, busy := busy }
    let begun := fun bytes => { s with service := s.service.beginCommand bytes }
    let found := fun (bytes : List Byte) (m : State) =>
      match s.path.access with
      | some old =>
        if busy = true ∧ old.phase = .inFlight then
          ∃ k, k ≤ old.count - 1 ∧
            m = { (begun bytes).afterCut old k with blocks := { s.blocks with draws := s.blocks.draws + 1 } }
        else m = { begun bytes with pins := { s.pins with select := s.pins.select || busy } }
      | none => m = { begun bytes with pins := { s.pins with select := s.pins.select || busy } }
    let handed := fun (m : State) (acc : Access) =>
      match m.path.access with
      | some _ => { m with service := { m.service with heldAccess := some acc } }
      | none => { m with path := { m.path with access := some (if m.pins.select then acc else m.startedAccess acc) } }
    let refused := fun (m : State) answer => { m with service := m.service.answered .refused 0 answer }
    let peekBytes := 2 :: addressBytes addr ++ [n]
    let pokeBytes := 3 :: addressBytes addr ++ n :: data
    let inRange := 1 ≤ n.toNat ∧ n.toNat ≤ 16
    (s.Takes peekBytes →
      ∃ m, found peekBytes m ∧ exec (.peek target n) s = .next (if inRange then handed m peek else refused m [1])) ∧
    (s.Takes pokeBytes → (inRange ∧ data.length = n.toNat) ∨ (¬inRange ∧ data = []) →
      ∃ m, found pokeBytes m ∧
        exec (.poke target n data) s =
          .next (if inRange ∧ s.blocks.held = true then handed m poke else refused m [1, 0]))

/-- HOLD (R46, R163, R165): with the permit, or in OPTION_FAULT, held is set: both pockets go to HELD with their hold-from
and resume states and a stop request, SERVICE is raised, no stage is left in a list, and in VALID
every stage of both pockets is in DWELL, those that were in it with their timers as they stood and the others at 0 (R83,
R114; the timer of one that was OFF is the model's, log entry 15), while in OPTION_FAULT a stage that was OFF stays OFF
(R94); in VALID without the
permit it is REFUSED, and while held already OK, and nothing changes. -/
def Obligations.HoldStopsBothPockets : Prop :=
  ∀ s : State, s.Takes [4] →
    let b := s.blocks
    let u := s.service.beginCommand [4]
    let dwells := fun g : StageUnit =>
      if b.optionState = .optionFault then g
      else if g.state = .off then { g with state := .dwell, dwell := 0, ended := false }
      else { g with ended := false }
    let hold := fun v : PocketUnit =>
      let c := v.cycle
      let active := c.state = .starting ∨ c.state = .drying ∨ c.state = .extending ∨ c.state = .cooling
      { v with
        cycle :=
          { c with
            state := .held, holdFrom := some c.state
            resume := if c.state = .starting then c.startTarget else if active then some c.state else c.resume
            startTarget := if active then none else c.startTarget }
        drum := v.drum.askedToStop, stage1 := dwells v.stage1, stage2 := dwells v.stage2 }
    (b.held = false → s.service.permit = true ∨ b.optionState = .optionFault →
      s.SettlesAs .hold (fun b => { s with blocks := b, service := u.answered .ok 0 [0] })
        ({ b with held := true, pocketA := hold b.pocketA, pocketB := hold b.pocketB }.withPending 0x8000) ∧
      ∀ t, exec .hold s = .next t → b.ListsAgree → t.blocks.load.grants = [] ∧ t.blocks.load.queue = [] ∧
        ∀ st, if b.optionState = .valid then
            (t.blocks.stage st).state = .dwell ∧
              (t.blocks.stage st).dwell = if (b.stage st).state = .dwell then (b.stage st).dwell else 0
          else (b.stage st).state = .off → (t.blocks.stage st).state = .off) ∧
    (b.held = false → s.service.permit = false → b.optionState = .valid →
      exec .hold s = .next { s with service := u.answered .refused 0 [1] }) ∧
    (b.held = true → exec .hold s = .next { s with service := u.answered .ok 0 [0] })

/-- RELEASE (R47, R163, R165): held is no; each pocket leaves HELD by R47's table, its hold-from state removed and its
freshness reloaded, in OPTION_FAULT with the byte as it stands (log entry 48); one that lands in PAUSED with a cause
recorded or a condition holding goes to FAULTED, one that lands in DONE with its door open to IDLE; DONE is raised for a
guard that was interrupted, and SERVICE. REFUSED outside hold. Stated for drums with STOP held, as every held pocket's is. -/
def Obligations.ReleaseLandsByTheTable : Prop :=
  ∀ s : State, s.Takes [5] →
    let b := s.blocks
    let u := s.service.beginCommand [5]
    let release := fun (p : Pocket) (v : PocketUnit) =>
      let c := { v.cycle with holdFrom := none, freshness := b.freshSeconds }
      let cause := b.causeAtEntry p
      let lands : Cycle :=
        match v.cycle.holdFrom with
        | some .starting | some .drying | some .extending | some .cooling | some .paused =>
          if cause.isSome then { c with state := .faulted, lockout := cause, startTarget := none, resume := none }
          else { c with state := .paused }
        | some .creaseGuard | some .done =>
          if b.doorClosed p then { c with state := .done }
          else { c with state := .idle, startTarget := none, resume := none }
        | some .faulted => { c with state := .faulted }
        | _ => { c with state := .idle }
      { v with cycle := lands }
    let raised : BitVec 16 :=
      0x8000 ||| (if b.pocketA.cycle.holdFrom = some .creaseGuard then 0x1000 else 0) |||
        if b.pocketB.cycle.holdFrom = some .creaseGuard then 0x2000 else 0
    (b.held = true → (∀ p, (b.pocket p).cycle.state = .held ∧ (b.pocket p).drum.request = .stop ∧
        (b.pocket p).drum.motorOn = false ∧ b.OneCause p) →
      s.SettlesAs .release (fun b => { s with blocks := b, service := u.answered .ok 0 [0] })
        ({ b with held := false, pocketA := release .a b.pocketA, pocketB := release .b b.pocketB }.withPending
          raised)) ∧
    (b.held = false → exec .release s = .next { s with service := u.answered .refused 0 [1] })

/-- OPT_READ and OPT_WRITE (R161, R163, R167): with no nonvolatile write running, OPT_READ answers the stored row's bytes,
and 0xFF bytes with REFUSED beyond 128; OPT_WRITE in hold begins the nonvolatile write, and outside hold or beyond 128 is
REFUSED with the option state of the working copy. While a nonvolatile write runs a command with a count in range waits
(R162), one that R167 will refuse too, which is the model's choice (log entry 40). A count out of range is REFUSED at
once. OPT_WRITE_COMPLETE (R162, R167): the data bytes are in the stored row, from the offset on, and no other byte of it
has changed; the command answers OK with the check of the whole stored row, and one abandoned meanwhile answers nothing; a
command that waited is then carried out. The working copy stays. -/
def Obligations.OptionRowIsReadAndWritten : Prop :=
  (∀ (s : State) (off n : Byte) (data : List Byte),
     let inRange := 1 ≤ n.toNat ∧ n.toNat ≤ 16
     let fits := off.toNat + n.toNat ≤ 128
     let read := s.service.beginCommand [6, off, n]
     let write := s.service.beginCommand (7 :: off :: n :: data)
     let state : Byte := if s.blocks.optionState = .valid then 0 else 1
     (s.Takes [6, off, n] → inRange → s.nvWrite = none →
       exec (.optRead off n) s = .next
         { s with
           service :=
             if fits then read.answered .ok 0 (0 :: (s.storedRow.drop off.toNat).take n.toNat)
             else read.answered .refused 0 (1 :: List.replicate n.toNat 0xFF) }) ∧
     (s.Takes [6, off, n] → inRange → s.nvWrite.isSome →
       exec (.optRead off n) s = .next { s with service := { read with heldOption := some (.read off n) } }) ∧
     (s.Takes [6, off, n] → ¬inRange →
       exec (.optRead off n) s = .next { s with service := read.answered .refused 0 [1] }) ∧
     (s.Takes (7 :: off :: n :: data) → inRange → data.length = n.toNat → s.nvWrite = none →
       exec (.optWrite off n data) s = .next
         (if s.blocks.held = true ∧ fits then
           { s with service := write, nvWrite := some { off := off.toNat, data := data, owned := true } }
         else { s with service := write.answered .refused 0 [1, state] })) ∧
     (s.Takes (7 :: off :: n :: data) → inRange → data.length = n.toNat → s.nvWrite.isSome →
       exec (.optWrite off n data) s =
         .next { s with service := { write with heldOption := some (.write off n data) } }) ∧
     (s.Takes (7 :: off :: n :: data) → ¬inRange → data = [] →
       exec (.optWrite off n data) s = .next { s with service := write.answered .refused 0 [1, 0] })) ∧
  ∀ (s : State) (w : NvWrite), s.phase = .running → s.nvWrite = some w →
    w.off + w.data.length ≤ s.storedRow.length →
    ∃ row,
      (let t := { s with
        storedRow := row, nvWrite := none
        service :=
          if w.owned then s.service.answered .ok 0 [0, if checkRow row = .valid then 0 else 1] else s.service }
      exec .optWriteComplete s = .next
        (match s.service.heldOption with
          | none => t
          | some c => { t with service := { t.service with heldOption := none } }.afterOption c)) ∧
      row.length = s.storedRow.length ∧
      ∀ i : Nat, row[i]? = if w.off ≤ i ∧ i < w.off + w.data.length then w.data[i - w.off]? else s.storedRow[i]?

/-- PART_TO_TOOL_SLOT (R159, R161, R168): in EXECUTING the slot reads 0, the line held low to cycle 20, until the command
has completed; then it reads 1; in ANSWERING each slot sends the next answer bit; in AWAIT_SYNC, a gap of the same cycle
having come first, it carries nothing. At a clock cycle the timers count: the slot and the gap timer, the hold of a 0, the
reply, the length of the present low, in SYNC_REPLY of the tool's own (log entry 20). A falling edge that finds the slot
timer at 32 begins a slot: in EXECUTING and ANSWERING as PART_TO_TOOL_SLOT, in READY, RECEIVING and AWAIT_SYNC with both
timers at 0 at that edge. At its cycle 32 the slot that read 1 leads to ANSWERING, and the last slot of the answer to
READY, with a RESET_PART's SERVICE_RESET joining the queue; an edge at that very cycle begins the next slot. A low
released past cycle 32 of its slot and short of 200 cycles is a line error and one of 200 or more a SYNC, both outside
SYNC_REPLY; one that began in SYNC_REPLY is never a line error (R160; log entry 20). Every low of a command code's first
slot is judged as begun in READY: the mark is set at the slot's edge, stands to the slot's end, and past it while the low
lasts and at its release. The reply ends 112 cycles after its SYNC, and the gap passes 1024 cycles in a command (R160,
R162), also within a low that may become a SYNC's (log entry 41), and against a slot of that cycle by log entry 49. In
RECEIVING a bit is counted at cycle 12, the eighth completes a byte, and the byte that completes a command puts it in the
queue. Which bytes spell which command (`receivedCommand`; R161, R184, R185): the codes 1 to 9 with their parameters in
the table's order, an address most significant byte first, FORCE_ALERT's set low byte first, the n data bytes after an n
of 1 to 16, an n outside it ending the command, an unknown code alone, and no command from any other bytes, such as a
shorter prefix. -/
def Obligations.AnswerSlotsSendTheAnswer : Prop :=
  (∀ s : State, s.phase = .running → s.service.slotTimer = 32 →
    let u := { s.service with slotTimer := 0, gapTimer := 0 }
    let sends := fun v => exec .partToToolSlot s = .next { s with service := v }
    (u.receiver = .executing → u.answer = none → sends { u with sentBit := some false, driveFor := 20 }) ∧
    (u.receiver = .executing → u.answer.isSome → sends { u with sentBit := some true, driveFor := 0 }) ∧
    (u.receiver = .awaitSync → sends u) ∧
    ∀ bit rest, u.receiver = .answering → u.answer = some (bit :: rest) →
      sends { u with sentBit := some bit, driveFor := if bit then 0 else 20, answer := some rest }) ∧
  (∀ (bytes : List Byte) (c : Instr),
    let fits := fun (n : Byte) (data : List Byte) =>
      if 1 ≤ n.toNat ∧ n.toNat ≤ 16 then data.length = n.toNat else data = []
    receivedCommand bytes = some c ↔
      (bytes = [1] ∧ c = .status) ∨
      (∃ a₂ a₁ a₀ n, bytes = [2, a₂, a₁, a₀, n] ∧ c = .peek { addr := a₂ ++ a₁ ++ a₀, busy := false } n) ∨
      (∃ a₂ a₁ a₀ n data, bytes = 3 :: a₂ :: a₁ :: a₀ :: n :: data ∧ fits n data ∧
        c = .poke { addr := a₂ ++ a₁ ++ a₀, busy := false } n data) ∨
      (bytes = [4] ∧ c = .hold) ∨ (bytes = [5] ∧ c = .release) ∨
      (∃ off n, bytes = [6, off, n] ∧ c = .optRead off n) ∨
      (∃ off n data, bytes = 7 :: off :: n :: data ∧ fits n data ∧ c = .optWrite off n data) ∨
      (∃ lo hi, bytes = [8, lo, hi] ∧ c = .forceAlert (hi ++ lo)) ∨ (bytes = [9] ∧ c = .resetPart) ∨
      ∃ code, bytes = [code] ∧ ¬(1 ≤ code.toNat ∧ code.toNat ≤ 9) ∧ c = .unknownCommand code) ∧
  ∀ s : State, s.phase = .running → s.pending = [] →
    let u := s.service
    let low := s.pins.toolLow = true ∨ 0 < u.driveFor ∨ (u.receiver = .syncReply ∧ 16 ≤ u.replyTimer)
    let falls := low ∧ u.lineLow = false
    let rises := ¬low ∧ u.lineLow = true
    let ends := 31 ≤ u.slotTimer
    let inCommand := u.receiver = .receiving ∨ u.receiver = .executing ∨ u.receiver = .answering
    let answered := u.receiver = .answering ∧ u.answer.getD [] = []
    let ready := ends ∧ (u.receiver = .ready ∨ answered)
    let restarts := falls ∧ ends ∧ (u.receiver = .ready ∨ u.receiver = .receiving ∨ u.receiver = .awaitSync ∨ answered)
    let lasts := if u.receiver = .syncReply then s.pins.toolLow = true else low
    ∃ t, step s = .next t ∧ (t.service.lineLow = true ↔ low) ∧
      (t.service.slotTimer = if restarts then 0 else min 32 (u.slotTimer + 1)) ∧
      (t.service.gapTimer =
        if restarts then 0
        else if inCommand then (if u.gapTimer < 1024 then u.gapTimer + 1 else u.gapTimer)
        else min 1025 (u.gapTimer + 1)) ∧
      t.service.driveFor = u.driveFor - 1 ∧
      (t.service.replyTimer =
        if u.receiver = .syncReply ∧ u.replyTimer < 111 then u.replyTimer + 1 else u.replyTimer) ∧
      (t.service.lowFor = if lasts then min 200 (u.lowFor + 1) else 0) ∧
      (t.service.lowFromReady = true ↔
        (falls ∧ ready) ∨ (ends ∧ ¬falls ∧ (low ∨ u.lineLow = true) ∧ u.lowFromReady = true) ∨
          (¬ends ∧ u.lowFromReady = true)) ∧
      (t.service.lowInReply = true ↔
        (falls ∧ u.receiver = .syncReply) ∨ (¬falls ∧ low ∧ u.lowInReply = true)) ∧
      t.service.permit = u.permit ∧ t.service.lastResult = u.lastResult ∧ t.service.collided = u.collided ∧
      t.service.sentBit = u.sentBit ∧ t.service.heldAccess = u.heldAccess ∧ t.service.heldOption = u.heldOption ∧
      (u.receiver = .awaitSync ∨ u.receiver = .syncReply ∨ u.receiver = .receiving →
        t.service.receiver = u.receiver) ∧
      (u.receiver = .executing →
        t.service.receiver = (if ends ∧ u.sentBit = some true then .answering else .executing) ∧
          t.service.answer = u.answer ∧ t.service.resetDue = u.resetDue) ∧
      (∀ bit rest, u.receiver = .answering → u.answer = some (bit :: rest) →
        t.service.receiver = .answering ∧ t.service.answer = u.answer ∧ t.service.resetDue = u.resetDue) ∧
      (u.receiver = .answering → u.answer = some [] →
        (¬ends → t.service.receiver = .answering ∧ t.service.answer = some []) ∧
        (ends → t.service.receiver = (if falls then .receiving else .ready) ∧ t.service.command = none ∧
          t.service.answer = none ∧ t.service.resetDue = decide (u.command = some [9]) ∧
          (.serviceReset ∈ t.pending ↔ u.command = some [9]))) ∧
      (u.receiver = .ready → t.service.receiver = if falls ∧ ends then .receiving else .ready) ∧
      (.partToToolSlot ∈ t.pending ↔ falls ∧ ends ∧
        (u.receiver = .executing ∨ ∃ bit rest, u.receiver = .answering ∧ u.answer = some (bit :: rest))) ∧
      (.lineError ∈ t.pending ↔
        rises ∧ u.receiver ≠ .syncReply ∧ u.slotTimer = 32 ∧ u.lowFor < 200 ∧ u.lowInReply = false) ∧
      (.sync ∈ t.pending ↔ rises ∧ u.receiver ≠ .syncReply ∧ 200 ≤ u.lowFor) ∧
      (.syncReply ∈ t.pending ↔ u.receiver = .syncReply ∧ u.replyTimer = 111) ∧
      (.gapTimeout ∈ t.pending ↔ inCommand ∧ u.gapTimer = 1024) ∧
      (u.receiver = .receiving → u.slotTimer = 11 →
        let bits := u.bits ++ [decide ¬low]
        (bits.length < 8 → t.service.bits = bits ∧ t.service.command = u.command) ∧
        (bits.length = 8 →
          let bytes := u.command.getD [] ++ [byteOfBits bits]
          t.service.bits = [] ∧ t.service.command = some bytes ∧
            ∀ c, receivedCommand bytes = some c → c ∈ t.pending)) ∧
      (u.receiver = .receiving → u.slotTimer ≠ 11 → t.service.bits = u.bits ∧ t.service.command = u.command)

/-- A frame that stores a new SEQ to the common record takes it (R7, R9, R10, R97, R153, R157, R166), in the order of
R153: a whole ALERT_ENABLE becomes the enabled set and a torn one keeps it; FAULT_LIST_CLEAR of 1 empties the fault list;
a whole ALERT_ACK acknowledges and a torn one acknowledges nothing; and the TAKE that a clamped, torn or refused field
raises is pending after it. SUPPLY_LIMIT comes into effect, kept at OPT_SUPPLY_MAX and clamped above it, with revocations
and grants of the same event; SERVICE_PERMIT of 1, or of 0 while not held, comes into effect, any other is refused.
Untouched fields keep their values. Nothing else changes. ALERT (R155), outside steps 1 to 3 of a start-up, is asserted
exactly when some cause is pending or forced and also enabled, or in OPTION_FAULT, and the top cause is the
lowest-numbered such cause. -/
def Obligations.CommonTakeComesIntoEffect : Prop :=
  (∀ (s : State) (seq : Byte), s.phase = .running → s.captures = true → s.path.access = none →
    s.path.stagingCommon.bytes.length = 8 → s.path.stagingCommon.touched.length = 8 →
    s.path.stagingCommon.lastSeq ≠ seq →
    let st := s.path.stagingCommon
    let touched := fun i => st.touched.getD i false = true
    let value := fun i => (st.bytes.getD i 0).toNat
    let set := fun i => st.bytes.getD (i + 1) 0 ++ st.bytes.getD i 0
    let whole := fun i => touched i ∧ touched (i + 1)
    let torn := fun i => (touched i ∨ touched (i + 1)) ∧ ¬whole i
    let most := min 31 (rowByte s.blocks.working 0x08)
    let permitOk := value 6 = 1 ∨ (value 6 = 0 ∧ s.blocks.held = false)
    let r : TakeResult :=
      { seq := seq, action := .none
        clamped := if touched 5 ∧ most < value 5 then 0x4 else 0
        torn := (if torn 1 then 0x1 else 0) ||| (if torn 3 then 0x2 else 0)
        refused := (if touched 6 ∧ ¬permitOk then 0x8 else 0) ||| (if touched 7 ∧ 1 < value 7 then 0x10 else 0) }
    let supply := if touched 5 then min (value 5) most else s.blocks.load.supplyLimit
    let permit := if touched 6 ∧ permitOk then decide (value 6 = 1) else s.service.permit
    let enabled := if whole 1 then set 1 else s.blocks.alerts.enabled
    let b₁ := { s.blocks with alerts :=
      { s.blocks.alerts with
        enabled := enabled, faults := if touched 7 ∧ value 7 = 1 then [] else s.blocks.alerts.faults } }
    let b₂ := if whole 3 then b₁.acknowledge (set 3) else b₁
    let b₃ := { b₂ with load := { b₂.load with supplyLimit := supply } }
    let addr := s.demandAddress 0x80
    let t := s.afterFrame (s.blocks.storeCode :: addressBytes addr ++ [seq]) .clean [] []
    s.SettlesAs (.storeFrame addr [seq] .clean)
      (fun b => { t with
        blocks := b
        ram := writeRam (startAddress addr).toNat seq s.ram
        service := { s.service with permit := permit }
        path := { t.path with
          stagingCommon :=
            { bytes := [st.bytes.getD 0 0] ++ toLe 2 enabled.toNat ++ [0, 0] ++
                [BitVec.ofNat 8 supply, if permit then 1 else 0, 0]
              touched := List.replicate 8 false, lastSeq := seq }
          resultCommon := r } })
      (if r.clamped ≠ 0 ∨ r.torn ≠ 0 ∨ r.refused ≠ 0 then b₃.withPending 0x4000 else b₃)) ∧
  (∀ s : State, s.alert = true ↔ s.phase = .running ∧
    ((∃ k : Nat, ((s.blocks.alerts.pending ||| s.blocks.alerts.forced) &&& s.blocks.alerts.enabled).getLsbD k = true) ∨
      s.blocks.optionState = .optionFault)) ∧
  ∀ a : Alerts,
    let shown := fun k => ((a.pending ||| a.forced) &&& a.enabled).getLsbD k = true
    (a.top = none ↔ ∀ k, ¬shown k) ∧ ∀ k, a.top = some k ↔ shown k ∧ ∀ i, i < k → ¬shown i
end

