-- ==== Sys2Proof/Laws/State.lean ====
section
/-! SUPPORT. What each update of the state leaves: one lemma per field per update, and the small facts of pockets and stages. -/

namespace Sys2Proof.Machine

@[simp] theorem State.modBlocks_pending (s : State) (f : Blocks → Blocks) : (s.modBlocks f).pending = s.pending := rfl
@[simp] theorem State.modBlocks_phase (s : State) (f : Blocks → Blocks) : (s.modBlocks f).phase = s.phase := rfl
@[simp] theorem State.modBlocks_resetKind (s : State) (f : Blocks → Blocks) : (s.modBlocks f).resetKind = s.resetKind := rfl
@[simp] theorem State.modBlocks_blocks (s : State) (f : Blocks → Blocks) : (s.modBlocks f).blocks = f s.blocks := rfl
@[simp] theorem State.modBlocks_path (s : State) (f : Blocks → Blocks) : (s.modBlocks f).path = s.path := rfl
@[simp] theorem State.modBlocks_service (s : State) (f : Blocks → Blocks) : (s.modBlocks f).service = s.service := rfl
@[simp] theorem State.modBlocks_storedRow (s : State) (f : Blocks → Blocks) : (s.modBlocks f).storedRow = s.storedRow := rfl
@[simp] theorem State.modBlocks_nvWrite (s : State) (f : Blocks → Blocks) : (s.modBlocks f).nvWrite = s.nvWrite := rfl
@[simp] theorem State.modBlocks_ram (s : State) (f : Blocks → Blocks) : (s.modBlocks f).ram = s.ram := rfl
@[simp] theorem State.modBlocks_link (s : State) (f : Blocks → Blocks) : (s.modBlocks f).link = s.link := rfl
@[simp] theorem State.modBlocks_pins (s : State) (f : Blocks → Blocks) : (s.modBlocks f).pins = s.pins := rfl

@[simp] theorem State.modPath_pending (s : State) (f : PathUnit → PathUnit) : (s.modPath f).pending = s.pending := rfl
@[simp] theorem State.modPath_phase (s : State) (f : PathUnit → PathUnit) : (s.modPath f).phase = s.phase := rfl
@[simp] theorem State.modPath_resetKind (s : State) (f : PathUnit → PathUnit) : (s.modPath f).resetKind = s.resetKind := rfl
@[simp] theorem State.modPath_blocks (s : State) (f : PathUnit → PathUnit) : (s.modPath f).blocks = s.blocks := rfl
@[simp] theorem State.modPath_path (s : State) (f : PathUnit → PathUnit) : (s.modPath f).path = f s.path := rfl
@[simp] theorem State.modPath_service (s : State) (f : PathUnit → PathUnit) : (s.modPath f).service = s.service := rfl
@[simp] theorem State.modPath_storedRow (s : State) (f : PathUnit → PathUnit) : (s.modPath f).storedRow = s.storedRow := rfl
@[simp] theorem State.modPath_nvWrite (s : State) (f : PathUnit → PathUnit) : (s.modPath f).nvWrite = s.nvWrite := rfl
@[simp] theorem State.modPath_ram (s : State) (f : PathUnit → PathUnit) : (s.modPath f).ram = s.ram := rfl
@[simp] theorem State.modPath_link (s : State) (f : PathUnit → PathUnit) : (s.modPath f).link = s.link := rfl
@[simp] theorem State.modPath_pins (s : State) (f : PathUnit → PathUnit) : (s.modPath f).pins = s.pins := rfl

@[simp] theorem State.modService_pending (s : State) (f : ServiceUnit → ServiceUnit) : (s.modService f).pending = s.pending := rfl
@[simp] theorem State.modService_phase (s : State) (f : ServiceUnit → ServiceUnit) : (s.modService f).phase = s.phase := rfl
@[simp] theorem State.modService_resetKind (s : State) (f : ServiceUnit → ServiceUnit) : (s.modService f).resetKind = s.resetKind := rfl
@[simp] theorem State.modService_blocks (s : State) (f : ServiceUnit → ServiceUnit) : (s.modService f).blocks = s.blocks := rfl
@[simp] theorem State.modService_path (s : State) (f : ServiceUnit → ServiceUnit) : (s.modService f).path = s.path := rfl
@[simp] theorem State.modService_service (s : State) (f : ServiceUnit → ServiceUnit) : (s.modService f).service = f s.service := rfl
@[simp] theorem State.modService_storedRow (s : State) (f : ServiceUnit → ServiceUnit) : (s.modService f).storedRow = s.storedRow := rfl
@[simp] theorem State.modService_nvWrite (s : State) (f : ServiceUnit → ServiceUnit) : (s.modService f).nvWrite = s.nvWrite := rfl
@[simp] theorem State.modService_ram (s : State) (f : ServiceUnit → ServiceUnit) : (s.modService f).ram = s.ram := rfl
@[simp] theorem State.modService_link (s : State) (f : ServiceUnit → ServiceUnit) : (s.modService f).link = s.link := rfl
@[simp] theorem State.modService_pins (s : State) (f : ServiceUnit → ServiceUnit) : (s.modService f).pins = s.pins := rfl

@[simp] theorem Blocks.modPocket_working (b : Blocks) (p : Pocket) (f : PocketUnit → PocketUnit) :
    (b.modPocket p f).working = b.working := by cases p <;> rfl
@[simp] theorem Blocks.modPocket_optionState (b : Blocks) (p : Pocket) (f : PocketUnit → PocketUnit) :
    (b.modPocket p f).optionState = b.optionState := by cases p <;> rfl
@[simp] theorem Blocks.modPocket_held (b : Blocks) (p : Pocket) (f : PocketUnit → PocketUnit) :
    (b.modPocket p f).held = b.held := by cases p <;> rfl
@[simp] theorem Blocks.modPocket_clock (b : Blocks) (p : Pocket) (f : PocketUnit → PocketUnit) :
    (b.modPocket p f).clock = b.clock := by cases p <;> rfl
@[simp] theorem Blocks.modPocket_draws (b : Blocks) (p : Pocket) (f : PocketUnit → PocketUnit) :
    (b.modPocket p f).draws = b.draws := by cases p <;> rfl
@[simp] theorem Blocks.modPocket_inlet (b : Blocks) (p : Pocket) (f : PocketUnit → PocketUnit) :
    (b.modPocket p f).inlet = b.inlet := by cases p <;> rfl
@[simp] theorem Blocks.modPocket_load (b : Blocks) (p : Pocket) (f : PocketUnit → PocketUnit) :
    (b.modPocket p f).load = b.load := by cases p <;> rfl
@[simp] theorem Blocks.modPocket_contacts (b : Blocks) (p : Pocket) (f : PocketUnit → PocketUnit) :
    (b.modPocket p f).contacts = b.contacts := by cases p <;> rfl
@[simp] theorem Blocks.modPocket_alerts (b : Blocks) (p : Pocket) (f : PocketUnit → PocketUnit) :
    (b.modPocket p f).alerts = b.alerts := by cases p <;> rfl

@[simp] theorem Blocks.modCycle_working (b : Blocks) (p : Pocket) (f : Cycle → Cycle) :
    (b.modCycle p f).working = b.working := by cases p <;> rfl
@[simp] theorem Blocks.modCycle_optionState (b : Blocks) (p : Pocket) (f : Cycle → Cycle) :
    (b.modCycle p f).optionState = b.optionState := by cases p <;> rfl
@[simp] theorem Blocks.modCycle_held (b : Blocks) (p : Pocket) (f : Cycle → Cycle) :
    (b.modCycle p f).held = b.held := by cases p <;> rfl
@[simp] theorem Blocks.modCycle_clock (b : Blocks) (p : Pocket) (f : Cycle → Cycle) :
    (b.modCycle p f).clock = b.clock := by cases p <;> rfl
@[simp] theorem Blocks.modCycle_draws (b : Blocks) (p : Pocket) (f : Cycle → Cycle) :
    (b.modCycle p f).draws = b.draws := by cases p <;> rfl
@[simp] theorem Blocks.modCycle_inlet (b : Blocks) (p : Pocket) (f : Cycle → Cycle) :
    (b.modCycle p f).inlet = b.inlet := by cases p <;> rfl
@[simp] theorem Blocks.modCycle_load (b : Blocks) (p : Pocket) (f : Cycle → Cycle) :
    (b.modCycle p f).load = b.load := by cases p <;> rfl
@[simp] theorem Blocks.modCycle_contacts (b : Blocks) (p : Pocket) (f : Cycle → Cycle) :
    (b.modCycle p f).contacts = b.contacts := by cases p <;> rfl
@[simp] theorem Blocks.modCycle_alerts (b : Blocks) (p : Pocket) (f : Cycle → Cycle) :
    (b.modCycle p f).alerts = b.alerts := by cases p <;> rfl

@[simp] theorem Blocks.modDrum_working (b : Blocks) (p : Pocket) (f : Drum → Drum) :
    (b.modDrum p f).working = b.working := by cases p <;> rfl
@[simp] theorem Blocks.modDrum_optionState (b : Blocks) (p : Pocket) (f : Drum → Drum) :
    (b.modDrum p f).optionState = b.optionState := by cases p <;> rfl
@[simp] theorem Blocks.modDrum_held (b : Blocks) (p : Pocket) (f : Drum → Drum) :
    (b.modDrum p f).held = b.held := by cases p <;> rfl
@[simp] theorem Blocks.modDrum_clock (b : Blocks) (p : Pocket) (f : Drum → Drum) :
    (b.modDrum p f).clock = b.clock := by cases p <;> rfl
@[simp] theorem Blocks.modDrum_draws (b : Blocks) (p : Pocket) (f : Drum → Drum) :
    (b.modDrum p f).draws = b.draws := by cases p <;> rfl
@[simp] theorem Blocks.modDrum_inlet (b : Blocks) (p : Pocket) (f : Drum → Drum) :
    (b.modDrum p f).inlet = b.inlet := by cases p <;> rfl
@[simp] theorem Blocks.modDrum_load (b : Blocks) (p : Pocket) (f : Drum → Drum) :
    (b.modDrum p f).load = b.load := by cases p <;> rfl
@[simp] theorem Blocks.modDrum_contacts (b : Blocks) (p : Pocket) (f : Drum → Drum) :
    (b.modDrum p f).contacts = b.contacts := by cases p <;> rfl
@[simp] theorem Blocks.modDrum_alerts (b : Blocks) (p : Pocket) (f : Drum → Drum) :
    (b.modDrum p f).alerts = b.alerts := by cases p <;> rfl

@[simp] theorem Blocks.modDryness_working (b : Blocks) (p : Pocket) (f : Dryness → Dryness) :
    (b.modDryness p f).working = b.working := by cases p <;> rfl
@[simp] theorem Blocks.modDryness_optionState (b : Blocks) (p : Pocket) (f : Dryness → Dryness) :
    (b.modDryness p f).optionState = b.optionState := by cases p <;> rfl
@[simp] theorem Blocks.modDryness_held (b : Blocks) (p : Pocket) (f : Dryness → Dryness) :
    (b.modDryness p f).held = b.held := by cases p <;> rfl
@[simp] theorem Blocks.modDryness_clock (b : Blocks) (p : Pocket) (f : Dryness → Dryness) :
    (b.modDryness p f).clock = b.clock := by cases p <;> rfl
@[simp] theorem Blocks.modDryness_draws (b : Blocks) (p : Pocket) (f : Dryness → Dryness) :
    (b.modDryness p f).draws = b.draws := by cases p <;> rfl
@[simp] theorem Blocks.modDryness_inlet (b : Blocks) (p : Pocket) (f : Dryness → Dryness) :
    (b.modDryness p f).inlet = b.inlet := by cases p <;> rfl
@[simp] theorem Blocks.modDryness_load (b : Blocks) (p : Pocket) (f : Dryness → Dryness) :
    (b.modDryness p f).load = b.load := by cases p <;> rfl
@[simp] theorem Blocks.modDryness_contacts (b : Blocks) (p : Pocket) (f : Dryness → Dryness) :
    (b.modDryness p f).contacts = b.contacts := by cases p <;> rfl
@[simp] theorem Blocks.modDryness_alerts (b : Blocks) (p : Pocket) (f : Dryness → Dryness) :
    (b.modDryness p f).alerts = b.alerts := by cases p <;> rfl

@[simp] theorem Blocks.modStage_working (b : Blocks) (st : Stage) (f : StageUnit → StageUnit) :
    (b.modStage st f).working = b.working := by cases st <;> rfl
@[simp] theorem Blocks.modStage_optionState (b : Blocks) (st : Stage) (f : StageUnit → StageUnit) :
    (b.modStage st f).optionState = b.optionState := by cases st <;> rfl
@[simp] theorem Blocks.modStage_held (b : Blocks) (st : Stage) (f : StageUnit → StageUnit) :
    (b.modStage st f).held = b.held := by cases st <;> rfl
@[simp] theorem Blocks.modStage_clock (b : Blocks) (st : Stage) (f : StageUnit → StageUnit) :
    (b.modStage st f).clock = b.clock := by cases st <;> rfl
@[simp] theorem Blocks.modStage_draws (b : Blocks) (st : Stage) (f : StageUnit → StageUnit) :
    (b.modStage st f).draws = b.draws := by cases st <;> rfl
@[simp] theorem Blocks.modStage_inlet (b : Blocks) (st : Stage) (f : StageUnit → StageUnit) :
    (b.modStage st f).inlet = b.inlet := by cases st <;> rfl
@[simp] theorem Blocks.modStage_load (b : Blocks) (st : Stage) (f : StageUnit → StageUnit) :
    (b.modStage st f).load = b.load := by cases st <;> rfl
@[simp] theorem Blocks.modStage_contacts (b : Blocks) (st : Stage) (f : StageUnit → StageUnit) :
    (b.modStage st f).contacts = b.contacts := by cases st <;> rfl
@[simp] theorem Blocks.modStage_alerts (b : Blocks) (st : Stage) (f : StageUnit → StageUnit) :
    (b.modStage st f).alerts = b.alerts := by cases st <;> rfl

@[simp] theorem Blocks.modLoad_working (b : Blocks) (f : LoadShare → LoadShare) : (b.modLoad f).working = b.working := rfl
@[simp] theorem Blocks.modLoad_optionState (b : Blocks) (f : LoadShare → LoadShare) : (b.modLoad f).optionState = b.optionState := rfl
@[simp] theorem Blocks.modLoad_held (b : Blocks) (f : LoadShare → LoadShare) : (b.modLoad f).held = b.held := rfl
@[simp] theorem Blocks.modLoad_clock (b : Blocks) (f : LoadShare → LoadShare) : (b.modLoad f).clock = b.clock := rfl
@[simp] theorem Blocks.modLoad_draws (b : Blocks) (f : LoadShare → LoadShare) : (b.modLoad f).draws = b.draws := rfl
@[simp] theorem Blocks.modLoad_inlet (b : Blocks) (f : LoadShare → LoadShare) : (b.modLoad f).inlet = b.inlet := rfl
@[simp] theorem Blocks.modLoad_load (b : Blocks) (f : LoadShare → LoadShare) : (b.modLoad f).load = f b.load := rfl
@[simp] theorem Blocks.modLoad_contacts (b : Blocks) (f : LoadShare → LoadShare) : (b.modLoad f).contacts = b.contacts := rfl
@[simp] theorem Blocks.modLoad_alerts (b : Blocks) (f : LoadShare → LoadShare) : (b.modLoad f).alerts = b.alerts := rfl
@[simp] theorem Blocks.modLoad_pocketA (b : Blocks) (f : LoadShare → LoadShare) : (b.modLoad f).pocketA = b.pocketA := rfl
@[simp] theorem Blocks.modLoad_pocketB (b : Blocks) (f : LoadShare → LoadShare) : (b.modLoad f).pocketB = b.pocketB := rfl

@[simp] theorem Blocks.modMains_working (b : Blocks) (f : Mains → Mains) : (b.modMains f).working = b.working := rfl
@[simp] theorem Blocks.modMains_optionState (b : Blocks) (f : Mains → Mains) : (b.modMains f).optionState = b.optionState := rfl
@[simp] theorem Blocks.modMains_held (b : Blocks) (f : Mains → Mains) : (b.modMains f).held = b.held := rfl
@[simp] theorem Blocks.modMains_clock (b : Blocks) (f : Mains → Mains) : (b.modMains f).clock = b.clock := rfl
@[simp] theorem Blocks.modMains_draws (b : Blocks) (f : Mains → Mains) : (b.modMains f).draws = b.draws := rfl
@[simp] theorem Blocks.modMains_inlet (b : Blocks) (f : Mains → Mains) : (b.modMains f).inlet = b.inlet := rfl
@[simp] theorem Blocks.modMains_contacts (b : Blocks) (f : Mains → Mains) : (b.modMains f).contacts = b.contacts := rfl
@[simp] theorem Blocks.modMains_alerts (b : Blocks) (f : Mains → Mains) : (b.modMains f).alerts = b.alerts := rfl
@[simp] theorem Blocks.modMains_pocketA (b : Blocks) (f : Mains → Mains) : (b.modMains f).pocketA = b.pocketA := rfl
@[simp] theorem Blocks.modMains_pocketB (b : Blocks) (f : Mains → Mains) : (b.modMains f).pocketB = b.pocketB := rfl
@[simp] theorem Blocks.modMains_load (b : Blocks) (f : Mains → Mains) :
    (b.modMains f).load = { b.load with mains := f b.load.mains } := rfl

/-! ## Pockets -/

@[simp] theorem Blocks.modPocket_pocket (b : Blocks) (p : Pocket) (f : PocketUnit → PocketUnit) :
    (b.modPocket p f).pocket p = f (b.pocket p) := by cases p <;> rfl

theorem Blocks.modPocket_pocket_of_ne (b : Blocks) {p q : Pocket} (h : q ≠ p) (f : PocketUnit → PocketUnit) :
    (b.modPocket p f).pocket q = b.pocket q := by cases p <;> cases q <;> first | rfl | exact absurd rfl h

@[simp] theorem Blocks.modPocket_otherPocket (b : Blocks) (p : Pocket) (f : PocketUnit → PocketUnit) :
    (b.modPocket p f).pocket (otherPocket p) = b.pocket (otherPocket p) := by cases p <;> rfl

@[simp] theorem Blocks.modCycle_pocket (b : Blocks) (p : Pocket) (f : Cycle → Cycle) :
    (b.modCycle p f).pocket p = { b.pocket p with cycle := f (b.pocket p).cycle } := by cases p <;> rfl

@[simp] theorem Blocks.modCycle_otherPocket (b : Blocks) (p : Pocket) (f : Cycle → Cycle) :
    (b.modCycle p f).pocket (otherPocket p) = b.pocket (otherPocket p) := by cases p <;> rfl

@[simp] theorem Blocks.modDrum_pocket (b : Blocks) (p : Pocket) (f : Drum → Drum) :
    (b.modDrum p f).pocket p = { b.pocket p with drum := f (b.pocket p).drum } := by cases p <;> rfl

@[simp] theorem Blocks.modDrum_otherPocket (b : Blocks) (p : Pocket) (f : Drum → Drum) :
    (b.modDrum p f).pocket (otherPocket p) = b.pocket (otherPocket p) := by cases p <;> rfl

@[simp] theorem Blocks.modDryness_pocket (b : Blocks) (p : Pocket) (f : Dryness → Dryness) :
    (b.modDryness p f).pocket p = { b.pocket p with dryness := f (b.pocket p).dryness } := by cases p <;> rfl

@[simp] theorem Blocks.modLoad_pocket (b : Blocks) (p : Pocket) (f : LoadShare → LoadShare) :
    (b.modLoad f).pocket p = b.pocket p := by cases p <;> rfl

@[simp] theorem Blocks.modMains_pocket (b : Blocks) (p : Pocket) (f : Mains → Mains) :
    (b.modMains f).pocket p = b.pocket p := by cases p <;> rfl

@[simp] theorem otherPocket_otherPocket (p : Pocket) : otherPocket (otherPocket p) = p := by cases p <;> rfl

theorem otherPocket_ne (p : Pocket) : otherPocket p ≠ p := by cases p <;> decide

/-! ## Stages -/

@[simp] theorem Blocks.modStage_stage (b : Blocks) (st : Stage) (f : StageUnit → StageUnit) :
    (b.modStage st f).stage st = f (b.stage st) := by cases st <;> rfl

theorem Blocks.modStage_stage_of_ne (b : Blocks) {st u : Stage} (h : u ≠ st) (f : StageUnit → StageUnit) :
    (b.modStage st f).stage u = b.stage u := by cases st <;> cases u <;> first | rfl | exact absurd rfl h

@[simp] theorem Blocks.modLoad_stage (b : Blocks) (st : Stage) (f : LoadShare → LoadShare) :
    (b.modLoad f).stage st = b.stage st := by cases st <;> rfl

@[simp] theorem Blocks.modLoad_modLoad (b : Blocks) (f g : LoadShare → LoadShare) :
    (b.modLoad f).modLoad g = b.modLoad fun l => g (f l) := rfl

/-! ## Phases -/

theorem State.onBlocks_of_running (s : State) (h : s.phase = .running) (f : Blocks → Blocks) :
    s.onBlocks f = s.modBlocks f := by simp [State.onBlocks, State.whileRunning, h]

theorem State.onBlocks_of_not_running (s : State) (h : s.phase ≠ .running) (f : Blocks → Blocks) :
    s.onBlocks f = s := by simp [State.onBlocks, State.whileRunning, h]

@[simp] theorem Blocks.when_true (b : Blocks) (f : Blocks → Blocks) : b.when true f = f b := rfl

@[simp] theorem Blocks.when_false (b : Blocks) (f : Blocks → Blocks) : b.when false f = b := rfl

end Sys2Proof.Machine
end

