-- ==== Sys2Proof/Laws/Heat.lean ====
section
/-! SUPPORT. The end of an event: what settling the heat items leaves alone, and what it establishes. -/

namespace Sys2Proof.Machine

/-! ## What the conditions read -/

theorem Blocks.apartFromHeat_pocket (b : Blocks) (p : Pocket) :
    b.apartFromHeat.pocket p = (b.pocket p).apartFromHeat := by cases p <;> rfl

theorem Blocks.permissionHolds_congr {b c : Blocks} (h : b.apartFromHeat = c.apartFromHeat) (p : Pocket) :
    b.permissionHolds p = c.permissionHolds p := by
  have e : ∀ d : Blocks, d.permissionHolds p = d.apartFromHeat.permissionHolds p := fun d => by cases p <;> rfl
  rw [e b, e c, h]

theorem Blocks.gateHolds_congr {b c : Blocks} (h : b.apartFromHeat = c.apartFromHeat) (p : Pocket) :
    (b.pocket p).gateHolds = (c.pocket p).gateHolds := by
  have e : ∀ d : Blocks, (d.pocket p).gateHolds = (d.apartFromHeat.pocket p).gateHolds := fun d => by cases p <;> rfl
  rw [e b, e c, h]

theorem Blocks.effectiveBudget_congr {b c : Blocks} (h : b.apartFromHeat = c.apartFromHeat) :
    b.effectiveBudget = c.effectiveBudget := by
  have e : ∀ d : Blocks, d.effectiveBudget = d.apartFromHeat.effectiveBudget := fun d => rfl
  rw [e b, e c, h]

theorem Blocks.cost_congr {b c : Blocks} (h : b.apartFromHeat = c.apartFromHeat) : b.cost = c.cost := by
  have e : ∀ d : Blocks, d.cost = d.apartFromHeat.cost := fun d => by funext st; cases st <;> rfl
  rw [e b, e c, h]

/-! ## What settling leaves alone -/

theorem Blocks.modPocket_apartFromHeat (b : Blocks) (p : Pocket) (f : PocketUnit → PocketUnit)
    (h : ∀ u : PocketUnit, (f u).apartFromHeat = u.apartFromHeat) :
    (b.modPocket p f).apartFromHeat = b.apartFromHeat := by
  cases p <;> simp [Blocks.modPocket, Blocks.apartFromHeat, h]

theorem Blocks.modStage_apartFromHeat (b : Blocks) (st : Stage) (f : StageUnit → StageUnit) :
    (b.modStage st f).apartFromHeat = b.apartFromHeat := by
  cases st <;> exact Blocks.modPocket_apartFromHeat _ _ _ fun _ => rfl

theorem Blocks.modLoad_apartFromHeat (b : Blocks) (f : LoadShare → LoadShare)
    (h : ∀ l : LoadShare, (f l).apartFromHeat = l.apartFromHeat) :
    (b.modLoad f).apartFromHeat = b.apartFromHeat := by
  simp [Blocks.modLoad, Blocks.apartFromHeat, h]

theorem PocketUnit.evaluateWants_apartFromHeat (u : PocketUnit) : u.evaluateWants.apartFromHeat = u.apartFromHeat := by
  unfold PocketUnit.evaluateWants
  split <;> rfl

theorem Blocks.evaluateWants_apartFromHeat (b : Blocks) (p : Pocket) :
    (b.evaluateWants p).apartFromHeat = b.apartFromHeat :=
  Blocks.modPocket_apartFromHeat _ _ _ PocketUnit.evaluateWants_apartFromHeat

theorem Blocks.requestStage_apartFromHeat (b : Blocks) (st : Stage) :
    (b.requestStage st).apartFromHeat = b.apartFromHeat := by
  exact (Blocks.modLoad_apartFromHeat _ _ fun _ => rfl).trans (Blocks.modStage_apartFromHeat ..)

theorem Blocks.withdrawStage_apartFromHeat (b : Blocks) (st : Stage) :
    (b.withdrawStage st).apartFromHeat = b.apartFromHeat := by
  exact (Blocks.modLoad_apartFromHeat _ _ fun _ => rfl).trans (Blocks.modStage_apartFromHeat ..)

theorem Blocks.reconcileStage_apartFromHeat (b : Blocks) (st : Stage) :
    (b.reconcileStage st).apartFromHeat = b.apartFromHeat := by
  unfold Blocks.reconcileStage
  split <;> first | rfl | (split <;> simp [Blocks.requestStage_apartFromHeat, Blocks.withdrawStage_apartFromHeat])

theorem Blocks.refreshPocket_apartFromHeat (b : Blocks) (p : Pocket) :
    (b.refreshPocket p).apartFromHeat = b.apartFromHeat := by
  unfold Blocks.refreshPocket
  simp only [Blocks.reconcileStage_apartFromHeat]
  rw [Blocks.modPocket_apartFromHeat]
  case h => exact fun _ => rfl
  split
  · rfl
  · exact Blocks.evaluateWants_apartFromHeat b p

theorem Blocks.queueStages_apartFromHeat (sts : List Stage) (b : Blocks) :
    (Blocks.queueStages sts b).apartFromHeat = b.apartFromHeat := by
  induction sts generalizing b with
  | nil => rfl
  | cons st rest ih => rw [Blocks.queueStages, ih, Blocks.modStage_apartFromHeat]

theorem Blocks.revoke_apartFromHeat (b : Blocks) : b.revoke.apartFromHeat = b.apartFromHeat := by
  exact (Blocks.modLoad_apartFromHeat _ _ fun _ => rfl).trans (Blocks.queueStages_apartFromHeat ..)

theorem Blocks.judgeHead_apartFromHeat (b : Blocks) : b.judgeHead.apartFromHeat = b.apartFromHeat := by
  unfold Blocks.judgeHead
  split
  · exact (Blocks.modLoad_apartFromHeat _ _ fun _ => rfl).trans (Blocks.modStage_apartFromHeat ..)
  · rfl

/-- The end of an event changes the heat items and nothing else. -/
theorem Blocks.settle_apartFromHeat (b : Blocks) : b.settle.apartFromHeat = b.apartFromHeat := by
  unfold Blocks.settle
  rw [Blocks.judgeHead_apartFromHeat, Blocks.revoke_apartFromHeat, Blocks.refreshPocket_apartFromHeat,
    Blocks.refreshPocket_apartFromHeat]

/-! ## What settling establishes -/

/-- A stage stands as its want and its pocket's permission call for, apart from the dwell. -/
def Blocks.StageOk (b : Blocks) (st : Stage) : Prop :=
  ((b.stage st).state = .on ∨ (b.stage st).state = .queued →
      (b.stage st).want = true ∧ (b.pocket (stagePocket st)).permission = true) ∧
    ((b.stage st).state = .off → ¬((b.stage st).want = true ∧ (b.pocket (stagePocket st)).permission = true))

theorem Blocks.modStage_permission (b : Blocks) (st : Stage) (f : StageUnit → StageUnit) (p : Pocket) :
    ((b.modStage st f).pocket p).permission = (b.pocket p).permission := by
  cases st <;> cases p <;> rfl

theorem Blocks.modStage_gateOpen (b : Blocks) (st : Stage) (f : StageUnit → StageUnit) (p : Pocket) :
    ((b.modStage st f).pocket p).dryness.gateOpen = (b.pocket p).dryness.gateOpen := by
  cases st <;> cases p <;> rfl

theorem Blocks.modStage_at (b : Blocks) (st u : Stage) (f : StageUnit → StageUnit) :
    (b.modStage st f).stage u = if u = st then f (b.stage st) else b.stage u := by
  cases st <;> cases u <;> rfl

theorem Blocks.requestStage_at (b : Blocks) (st u : Stage) :
    (b.requestStage st).stage u = if u = st then { b.stage st with state := .queued } else b.stage u := by
  rw [Blocks.requestStage, Blocks.modLoad_stage, Blocks.modStage_at]

@[simp] theorem StageUnit.withdrawn_want (u : StageUnit) : u.withdrawn.want = u.want := by
  unfold StageUnit.withdrawn; split <;> rfl

/-- A withdrawn stage is in no list. -/
@[simp] theorem StageUnit.withdrawn_ne_on (u : StageUnit) : u.withdrawn.state ≠ .on := by
  unfold StageUnit.withdrawn; split <;> simp

@[simp] theorem StageUnit.withdrawn_ne_queued (u : StageUnit) : u.withdrawn.state ≠ .queued := by
  unfold StageUnit.withdrawn; split <;> simp

theorem Blocks.withdrawStage_at (b : Blocks) (st u : Stage) :
    (b.withdrawStage st).stage u = if u = st then (b.stage st).withdrawn else b.stage u := by
  rw [Blocks.withdrawStage, Blocks.modLoad_stage, Blocks.modStage_at]

theorem Blocks.requestStage_listsAgree (b : Blocks) (st : Stage) (h : b.ListsAgree) (off : (b.stage st).state = .off) :
    (b.requestStage st).ListsAgree := by
  obtain ⟨hg, hq, hs⟩ := h
  have nq : st ∉ b.load.queue.map QueueEntry.stage := fun hm => by
    have := (hs st).2.2 hm; simp [off] at this
  have ng : st ∉ b.load.grants := fun hm => by
    have := (hs st).1.2 hm; simp [off] at this
  refine ⟨by simpa [Blocks.requestStage] using hg, ?_, fun u => ?_⟩
  · simp [Blocks.requestStage, List.nodup_append, hq]
    intro x hx e; exact nq (by simpa [e] using List.mem_map_of_mem (f := QueueEntry.stage) hx)
  · rw [Blocks.requestStage_at]
    have hu := hs u
    by_cases e : u = st
    · subst e; simp [Blocks.requestStage, ng]
    · simp [Blocks.requestStage, e, hu]

theorem Blocks.withdrawStage_listsAgree (b : Blocks) (st : Stage) (h : b.ListsAgree) :
    (b.withdrawStage st).ListsAgree := by
  obtain ⟨hg, hq, hs⟩ := h
  refine ⟨?_, ?_, fun u => ?_⟩
  · simpa [Blocks.withdrawStage, LoadShare.remove] using hg.filter _
  · have e : (b.load.queue.filter fun e => e.stage != st).map QueueEntry.stage =
        (b.load.queue.map QueueEntry.stage).filter fun s => s != st := by
      rw [List.filter_map]; rfl
    simpa [Blocks.withdrawStage, LoadShare.remove, e] using hq.filter _
  · rw [Blocks.withdrawStage_at]
    have hu := hs u
    by_cases e : u = st
    · subst e; simp [Blocks.withdrawStage, LoadShare.remove]
    · simp [e, hu, Blocks.withdrawStage, LoadShare.remove]
      constructor
      · rintro ⟨x, hx, rfl⟩; exact ⟨x, ⟨hx, e⟩, rfl⟩
      · rintro ⟨x, ⟨hx, _⟩, rfl⟩; exact ⟨x, hx, rfl⟩

theorem Blocks.reconcileStage_listsAgree (b : Blocks) (st : Stage) (h : b.ListsAgree) :
    (b.reconcileStage st).ListsAgree := by
  unfold Blocks.reconcileStage
  split
  · split
    · exact Blocks.requestStage_listsAgree b st h ‹_›
    · exact h
  · split
    · exact h
    · exact Blocks.withdrawStage_listsAgree b st h
  · split
    · exact h
    · exact Blocks.withdrawStage_listsAgree b st h
  · exact h

theorem Blocks.reconcileStage_permission (b : Blocks) (st : Stage) (p : Pocket) :
    ((b.reconcileStage st).pocket p).permission = (b.pocket p).permission ∧
      ((b.reconcileStage st).pocket p).dryness.gateOpen = (b.pocket p).dryness.gateOpen := by
  unfold Blocks.reconcileStage
  split <;> (try split) <;>
    simp [Blocks.requestStage, Blocks.withdrawStage, Blocks.modStage_permission, Blocks.modStage_gateOpen]

theorem Blocks.reconcileStage_at_of_ne (b : Blocks) {st u : Stage} (h : u ≠ st) :
    (b.reconcileStage st).stage u = b.stage u := by
  unfold Blocks.reconcileStage
  split <;> (try split) <;> simp [Blocks.requestStage_at, Blocks.withdrawStage_at, h]

theorem Blocks.reconcileStage_ok (b : Blocks) (st : Stage) : (b.reconcileStage st).StageOk st := by
  unfold Blocks.StageOk
  rw [(Blocks.reconcileStage_permission b st _).1]
  unfold Blocks.reconcileStage
  split <;> rename_i hst <;> (try split) <;> rename_i hc <;>
    simp_all [Blocks.requestStage_at, Blocks.withdrawStage_at, Blocks.called]

theorem Blocks.stageOk_congr {b c : Blocks} {st : Stage} (hs : c.stage st = b.stage st)
    (hp : (c.pocket (stagePocket st)).permission = (b.pocket (stagePocket st)).permission) (h : b.StageOk st) :
    c.StageOk st := by
  unfold Blocks.StageOk at *; rw [hs, hp]; exact h

theorem Blocks.modPocket_stage (b : Blocks) (p : Pocket) (f : PocketUnit → PocketUnit)
    (h : ∀ u : PocketUnit, (f u).stage1 = u.stage1 ∧ (f u).stage2 = u.stage2) (st : Stage) :
    (b.modPocket p f).stage st = b.stage st := by
  cases p <;> cases st <;> simp [Blocks.modPocket, Blocks.stage, h]

theorem PocketUnit.evaluateWants_states (u : PocketUnit) :
    u.evaluateWants.stage1.state = u.stage1.state ∧ u.evaluateWants.stage2.state = u.stage2.state := by
  unfold PocketUnit.evaluateWants; split <;> exact ⟨rfl, rfl⟩

theorem Blocks.evaluateWants_state (b : Blocks) (p : Pocket) (st : Stage) :
    ((b.evaluateWants p).stage st).state = (b.stage st).state := by
  have h := PocketUnit.evaluateWants_states
  cases p <;> cases st <;> simp [Blocks.evaluateWants, Blocks.modPocket, Blocks.stage, h]

theorem Blocks.evaluateWants_stage_of_ne (b : Blocks) (p : Pocket) (st : Stage) (h : stagePocket st ≠ p) :
    (b.evaluateWants p).stage st = b.stage st := by
  cases p <;> cases st <;> first | rfl | exact absurd rfl h

theorem Blocks.listsAgree_congr {b c : Blocks} (hs : ∀ st, (c.stage st).state = (b.stage st).state)
    (hg : c.load.grants = b.load.grants) (hq : c.load.queue = b.load.queue) (h : b.ListsAgree) : c.ListsAgree := by
  obtain ⟨h1, h2, h3⟩ := h
  exact ⟨hg ▸ h1, hq ▸ h2, fun st => by rw [hs, hg, hq]; exact h3 st⟩

theorem Blocks.evaluateWants_load (b : Blocks) (p : Pocket) : (b.evaluateWants p).load = b.load := by
  cases p <;> rfl

theorem PocketUnit.evaluateWants_permission (u : PocketUnit) :
    u.evaluateWants.permission = u.permission ∧ u.evaluateWants.dryness = u.dryness := by
  unfold PocketUnit.evaluateWants; split <;> exact ⟨rfl, rfl⟩

/-- A pocket's permission, gate and stages after they have been judged (R83, R118). -/
theorem Blocks.refreshPocket_spec (b : Blocks) (p : Pocket) (h : b.ListsAgree) :
    (b.refreshPocket p).ListsAgree ∧
      ((b.refreshPocket p).pocket p).permission = b.permissionHolds p ∧
      ((b.refreshPocket p).pocket p).dryness.gateOpen = (b.pocket p).gateHolds ∧
      (b.refreshPocket p).StageOk (stagesOf p).1 ∧ (b.refreshPocket p).StageOk (stagesOf p).2 ∧
      (∀ st, stagePocket st ≠ p → (b.refreshPocket p).stage st = b.stage st) ∧
      (b.refreshPocket p).pocket (otherPocket p) = b.pocket (otherPocket p) := by
  -- the wants, then the two items
  obtain ⟨b₁, hb₁⟩ : ∃ b₁, b₁ = if (b.pocket p).permission = b.permissionHolds p then b else b.evaluateWants p :=
    ⟨_, rfl⟩
  have a₁ : b₁.apartFromHeat = b.apartFromHeat := by
    rw [hb₁]; split
    · rfl
    · exact b.evaluateWants_apartFromHeat p
  have l₁ : b₁.ListsAgree := by
    rw [hb₁]; split
    · exact h
    · exact Blocks.listsAgree_congr (b.evaluateWants_state p) (by rw [b.evaluateWants_load])
        (by rw [b.evaluateWants_load]) h
  have o₁ : b₁.pocket (otherPocket p) = b.pocket (otherPocket p) := by
    rw [hb₁]; split
    · rfl
    · exact b.modPocket_otherPocket p _
  have s₁ : ∀ st, stagePocket st ≠ p → b₁.stage st = b.stage st := fun st hst => by
    rw [hb₁]; split
    · rfl
    · exact b.evaluateWants_stage_of_ne p st hst
  obtain ⟨b₂, hb₂⟩ : ∃ b₂, b₂ = b₁.modPocket p fun u =>
      { u with permission := b.permissionHolds p, dryness := { u.dryness with gateOpen := u.gateHolds } } := ⟨_, rfl⟩
  have s₂ : ∀ st, b₂.stage st = b₁.stage st := by
    rw [hb₂]; exact b₁.modPocket_stage p _ fun _ => ⟨rfl, rfl⟩
  have l₂ : b₂.ListsAgree :=
    Blocks.listsAgree_congr (fun st => by rw [s₂]) (by rw [hb₂, b₁.modPocket_load]) (by rw [hb₂, b₁.modPocket_load]) l₁
  have p₂ : (b₂.pocket p).permission = b.permissionHolds p := by rw [hb₂, Blocks.modPocket_pocket]
  have g₂ : (b₂.pocket p).dryness.gateOpen = (b.pocket p).gateHolds := by
    rw [hb₂, Blocks.modPocket_pocket]; exact Blocks.gateHolds_congr a₁ p
  have o₂ : b₂.pocket (otherPocket p) = b.pocket (otherPocket p) := by
    rw [hb₂, Blocks.modPocket_otherPocket, o₁]
  have e : b.refreshPocket p = (b₂.reconcileStage (stagesOf p).1).reconcileStage (stagesOf p).2 := by
    rw [hb₂, hb₁]; rfl
  have d : (stagesOf p).1 ≠ (stagesOf p).2 := by cases p <;> decide
  have q1 : stagePocket (stagesOf p).1 = p := by cases p <;> rfl
  have q2 : stagePocket (stagesOf p).2 = p := by cases p <;> rfl
  rw [e]
  refine ⟨Blocks.reconcileStage_listsAgree _ _ (Blocks.reconcileStage_listsAgree _ _ l₂), ?_, ?_, ?_,
    Blocks.reconcileStage_ok _ _, ?_, ?_⟩
  · rw [(Blocks.reconcileStage_permission _ _ _).1, (Blocks.reconcileStage_permission _ _ _).1, p₂]
  · rw [(Blocks.reconcileStage_permission _ _ _).2, (Blocks.reconcileStage_permission _ _ _).2, g₂]
  · exact Blocks.stageOk_congr (Blocks.reconcileStage_at_of_ne _ d) (Blocks.reconcileStage_permission _ _ _).1
      (Blocks.reconcileStage_ok _ _)
  · intro st hst
    have n1 : st ≠ (stagesOf p).1 := fun hc => hst (by rw [hc, q1])
    have n2 : st ≠ (stagesOf p).2 := fun hc => hst (by rw [hc, q2])
    rw [Blocks.reconcileStage_at_of_ne _ n2, Blocks.reconcileStage_at_of_ne _ n1, s₂, s₁ st hst]
  · have keep : ∀ (c : Blocks) (st : Stage), stagePocket st = p →
        (c.reconcileStage st).pocket (otherPocket p) = c.pocket (otherPocket p) := fun c st hst => by
      subst hst
      unfold Blocks.reconcileStage
      split <;> (try split) <;> cases st <;> rfl
    rw [keep _ _ q2, keep _ _ q1, o₂]

/-! ## Revocation and grant -/

theorem splitGrants_append (cost : Stage → Nat) (gs : List Stage) (budget : Nat) :
    (splitGrants cost budget gs).1 ++ (splitGrants cost budget gs).2 = gs := by
  induction gs generalizing budget with
  | nil => rfl
  | cons g rest ih =>
    unfold splitGrants
    split
    · simp [ih]
    · rfl

theorem splitGrants_fits (cost : Stage → Nat) (gs : List Stage) (budget : Nat) :
    (((splitGrants cost budget gs).1).map cost).sum ≤ budget := by
  induction gs generalizing budget with
  | nil => simp [splitGrants]
  | cons g rest ih =>
    unfold splitGrants
    split
    · have := ih (budget - cost g); simp; omega
    · simp

theorem Blocks.queueStages_load (sts : List Stage) (b : Blocks) : (Blocks.queueStages sts b).load = b.load := by
  induction sts generalizing b with
  | nil => rfl
  | cons st rest ih => rw [Blocks.queueStages, ih, Blocks.modStage_load]

theorem Blocks.queueStages_permission (sts : List Stage) (b : Blocks) (p : Pocket) :
    ((Blocks.queueStages sts b).pocket p).permission = (b.pocket p).permission ∧
      ((Blocks.queueStages sts b).pocket p).dryness.gateOpen = (b.pocket p).dryness.gateOpen := by
  induction sts generalizing b with
  | nil => exact ⟨rfl, rfl⟩
  | cons st rest ih =>
    rw [Blocks.queueStages, (ih _).1, (ih _).2, Blocks.modStage_permission, Blocks.modStage_gateOpen]
    exact ⟨rfl, rfl⟩

theorem Blocks.queueStages_at (sts : List Stage) (b : Blocks) (u : Stage) :
    (Blocks.queueStages sts b).stage u = if u ∈ sts then { b.stage u with state := .queued } else b.stage u := by
  induction sts generalizing b with
  | nil => simp [Blocks.queueStages]
  | cons st rest ih =>
    rw [Blocks.queueStages, ih, Blocks.modStage_at]
    by_cases e : u = st
    · subst e; by_cases m : u ∈ rest <;> simp [m]
    · by_cases m : u ∈ rest <;> simp [m, e]

/-- What revocation leaves (R105). -/
theorem Blocks.revoke_spec (b : Blocks) (h : b.ListsAgree) :
    b.revoke.ListsAgree ∧
      (∀ p, (b.revoke.pocket p).permission = (b.pocket p).permission ∧
        (b.revoke.pocket p).dryness.gateOpen = (b.pocket p).dryness.gateOpen) ∧
      (∀ st, b.StageOk st → b.revoke.StageOk st) ∧ b.revoke.grantedSum ≤ b.revoke.effectiveBudget := by
  obtain ⟨kept, hk⟩ : ∃ k, k = (splitGrants b.cost b.effectiveBudget b.load.grants).1 := ⟨_, rfl⟩
  obtain ⟨gone, hv⟩ : ∃ k, k = (splitGrants b.cost b.effectiveBudget b.load.grants).2 := ⟨_, rfl⟩
  have app : kept ++ gone = b.load.grants := by rw [hk, hv]; exact splitGrants_append _ _ _
  have fits := splitGrants_fits b.cost b.load.grants b.effectiveBudget
  rw [← hk] at fits
  have e : b.revoke = (Blocks.queueStages gone b).modLoad fun l =>
      { l with grants := kept, queue := gone.map (fun st => { stage := st, notBefore := some 5000 }) ++ l.queue } := by
    rw [hk, hv]; rfl
  obtain ⟨hg, hq, hs⟩ := h
  rw [← app] at hg
  have disj : ∀ u, u ∈ kept → u ∉ gone := fun u hu hu' =>
    (List.nodup_append.1 hg).2.2 u hu u hu' rfl
  have mem : ∀ u, u ∈ b.load.grants ↔ u ∈ kept ∨ u ∈ gone := fun u => by rw [← app, List.mem_append]
  have perm : ∀ p, (b.revoke.pocket p).permission = (b.pocket p).permission ∧
      (b.revoke.pocket p).dryness.gateOpen = (b.pocket p).dryness.gateOpen := fun p => by
    rw [e, Blocks.modLoad_pocket]; exact Blocks.queueStages_permission gone b p
  have at_ : ∀ u, b.revoke.stage u = if u ∈ gone then { b.stage u with state := .queued } else b.stage u := fun u => by
    rw [e, Blocks.modLoad_stage, Blocks.queueStages_at]
  have grants : b.revoke.load.grants = kept := by rw [e]; rfl
  have queue : b.revoke.load.queue.map QueueEntry.stage = gone ++ b.load.queue.map QueueEntry.stage := by
    rw [e]; simp [Blocks.queueStages_load, Function.comp_def]
  refine ⟨⟨?_, ?_, fun u => ?_⟩, perm, fun st ok => ?_, ?_⟩
  · rw [grants]; exact (List.nodup_append.1 hg).1
  · rw [queue]
    refine List.nodup_append.2 ⟨(List.nodup_append.1 hg).2.1, hq, fun u hu w hw hw' => ?_⟩
    subst hw'
    have h1 := (hs u).1.2 ((mem u).2 (Or.inr hu))
    have h2 := (hs u).2.2 hw
    rw [h1] at h2; exact absurd h2 (by decide)
  · rw [at_, grants, queue]
    have hu := hs u
    by_cases m : u ∈ gone
    · have nk : u ∉ kept := fun hk => disj u hk m
      simp [m, nk]
    · rw [mem] at hu; simpa [m] using hu
  · unfold Blocks.StageOk at *
    rw [at_, (perm _).1]
    by_cases m : st ∈ gone
    · have on := (hs st).1.2 ((mem st).2 (Or.inr m))
      simp [m, ok.1 (Or.inl on)]
    · simpa [m] using ok
  · rw [Blocks.effectiveBudget_congr b.revoke_apartFromHeat, Blocks.grantedSum, grants, Blocks.costSum,
      Blocks.cost_congr b.revoke_apartFromHeat]
    exact fits

theorem Blocks.headFits_some {b : Blocks} {st : Stage} (h : b.headFits = some st) :
    ∃ e rest, b.load.queue = e :: rest ∧ e.stage = st ∧ b.load.pacing = 250 ∧
      b.grantedSum + b.cost st ≤ b.effectiveBudget := by
  unfold Blocks.headFits at h
  split at h
  · rename_i e rest hq
    split at h
    · rename_i c; cases h; exact ⟨e, rest, hq, rfl, c.2.1, c.2.2⟩
    · cases h
  · cases h

/-- What a judgement of the head leaves (R101). -/
theorem Blocks.judgeHead_spec (b : Blocks) (h : b.ListsAgree) (fit : b.grantedSum ≤ b.effectiveBudget) :
    b.judgeHead.ListsAgree ∧
      (∀ p, (b.judgeHead.pocket p).permission = (b.pocket p).permission ∧
        (b.judgeHead.pocket p).dryness.gateOpen = (b.pocket p).dryness.gateOpen) ∧
      (∀ st, b.StageOk st → b.judgeHead.StageOk st) ∧ b.judgeHead.grantedSum ≤ b.judgeHead.effectiveBudget ∧
      b.judgeHead.headFits = none := by
  cases hf : b.headFits with
  | none =>
    have e : b.judgeHead = b := by unfold Blocks.judgeHead; rw [hf]
    rw [e]; exact ⟨h, fun _ => ⟨rfl, rfl⟩, fun _ ok => ok, fit, hf⟩
  | some st =>
    have e : b.judgeHead = (b.modStage st fun u => { u with state := .on }).modLoad fun l =>
        { l with queue := l.queue.tail, grants := l.grants ++ [st], pacing := 0 } := by
      unfold Blocks.judgeHead; rw [hf]
    obtain ⟨en, rest, hq, hen, _, hfit⟩ := Blocks.headFits_some hf
    obtain ⟨g, q, s⟩ := h
    have mq : st ∈ b.load.queue.map QueueEntry.stage := by rw [hq]; simp [hen]
    have isq : (b.stage st).state = .queued := (s st).2.2 mq
    have ng : st ∉ b.load.grants := fun hm => by have := (s st).1.2 hm; rw [isq] at this; cases this
    rw [hq] at q; simp only [List.map_cons, hen, List.nodup_cons] at q
    have perm : ∀ p, (b.judgeHead.pocket p).permission = (b.pocket p).permission ∧
        (b.judgeHead.pocket p).dryness.gateOpen = (b.pocket p).dryness.gateOpen := fun p => by
      rw [e, Blocks.modLoad_pocket, Blocks.modStage_permission, Blocks.modStage_gateOpen]; exact ⟨rfl, rfl⟩
    have at_ : ∀ u, b.judgeHead.stage u = if u = st then { b.stage st with state := .on } else b.stage u := fun u => by
      rw [e, Blocks.modLoad_stage, Blocks.modStage_at]
    have grants : b.judgeHead.load.grants = b.load.grants ++ [st] := by rw [e]; simp
    have queue : b.judgeHead.load.queue = rest := by rw [e]; simp [hq]
    have pacing : b.judgeHead.load.pacing = 0 := by rw [e]; rfl
    refine ⟨⟨?_, ?_, fun u => ?_⟩, perm, fun u ok => ?_, ?_, ?_⟩
    · rw [grants]; simp [List.nodup_append, g]; exact fun a ha hc => ng (hc ▸ ha)
    · rw [queue]; exact q.2
    · rw [at_, grants, queue]
      have hu := s u
      rw [hq] at hu; simp only [List.map_cons, hen, List.mem_cons] at hu
      by_cases c : u = st
      · subst c; simp [q.1]
      · simpa [c] using hu
    · unfold Blocks.StageOk at *
      rw [at_, (perm _).1]
      by_cases c : u = st
      · subst c; simp [ok.1 (Or.inr isq)]
      · simpa [c] using ok
    · rw [Blocks.effectiveBudget_congr b.judgeHead_apartFromHeat, Blocks.grantedSum, grants, Blocks.costSum,
        Blocks.cost_congr b.judgeHead_apartFromHeat]
      simpa [Blocks.grantedSum, Blocks.costSum] using hfit
    · unfold Blocks.headFits
      split
      · rw [pacing]; simp
      · rfl

/-- The end of an event leaves the heat items settled, if the lists agreed with the stages. -/
theorem Blocks.settle_settled (b : Blocks) (h : b.ListsAgree) : b.settle.HeatSettled := by
  obtain ⟨la, pa, ga, a1, a2, sa, oa⟩ := b.refreshPocket_spec .a h
  obtain ⟨lb, pb, gb, b1, b2, sb, ob⟩ := (b.refreshPocket .a).refreshPocket_spec .b la
  obtain ⟨c, hc⟩ : ∃ c, c = (b.refreshPocket .a).refreshPocket .b := ⟨_, rfl⟩
  have ac : c.apartFromHeat = b.apartFromHeat := by
    rw [hc, Blocks.refreshPocket_apartFromHeat, Blocks.refreshPocket_apartFromHeat]
  have ha := b.refreshPocket_apartFromHeat .a
  rw [← hc] at lb pb gb b1 b2 sb ob
  have oc : c.pocket .a = (b.refreshPocket .a).pocket .a := ob
  have ok : ∀ st, c.StageOk st := fun st => by
    cases st
    · exact Blocks.stageOk_congr (sb .a1 (by decide)) (congrArg PocketUnit.permission oc) a1
    · exact Blocks.stageOk_congr (sb .a2 (by decide)) (congrArg PocketUnit.permission oc) a2
    · exact b1
    · exact b2
  have pc : ∀ p, (c.pocket p).permission = b.permissionHolds p ∧
      (c.pocket p).dryness.gateOpen = (b.pocket p).gateHolds := fun p => by
    cases p
    · exact ⟨by rw [oc]; exact pa, by rw [oc]; exact ga⟩
    · exact ⟨by rw [pb]; exact Blocks.permissionHolds_congr ha .b, by rw [gb]; exact Blocks.gateHolds_congr ha .b⟩
  obtain ⟨lr, pr, okr, fr⟩ := c.revoke_spec lb
  obtain ⟨lj, pj, okj, fj, hj⟩ := c.revoke.judgeHead_spec lr fr
  have es : b.settle = c.revoke.judgeHead := by rw [hc]; rfl
  have as := b.settle_apartFromHeat
  rw [es] at as ⊢
  refine ⟨lj, fun p => ⟨?_, ?_⟩, fun st => okj st (okr st (ok st)), fj, hj⟩
  · rw [(pj p).1, (pr p).1, (pc p).1]; exact (Blocks.permissionHolds_congr as p).symm
  · rw [(pj p).2, (pr p).2, (pc p).2]; exact (Blocks.gateHolds_congr as p).symm

end Sys2Proof.Machine
end

