-- ==== Sys2Proof/Laws/Lists.lean ====
section
/-! SUPPORT. Which shared operations leave the stage states, the request queue and the grant list alone, and how an event that ends in settling answers: the lemmas the statements on events go through. -/

namespace Sys2Proof.Machine

/-- The stage states, the request queue and the grant list are the same. -/
def Blocks.SameLists (b c : Blocks) : Prop :=
  (∀ st, (c.stage st).state = (b.stage st).state) ∧ c.load.grants = b.load.grants ∧ c.load.queue = b.load.queue

theorem Blocks.SameLists.refl (b : Blocks) : b.SameLists b := ⟨fun _ => rfl, rfl, rfl⟩

theorem Blocks.SameLists.trans {b c d : Blocks} (h : b.SameLists c) (k : c.SameLists d) : b.SameLists d :=
  ⟨fun st => (k.1 st).trans (h.1 st), k.2.1.trans h.2.1, k.2.2.trans h.2.2⟩

/-- Lists that agree with the stages go on agreeing. -/
theorem Blocks.SameLists.listsAgree {b c : Blocks} (h : b.SameLists c) (k : b.ListsAgree) : c.ListsAgree :=
  Blocks.listsAgree_congr h.1 h.2.1 h.2.2 k

/-- The pockets' stages and the load share unit are the same, so the lists are. -/
theorem Blocks.sameLists_of_eq {b c : Blocks} (ha : c.pocketA.stage1 = b.pocketA.stage1)
    (ha' : c.pocketA.stage2 = b.pocketA.stage2) (hb : c.pocketB.stage1 = b.pocketB.stage1)
    (hb' : c.pocketB.stage2 = b.pocketB.stage2) (hg : c.load.grants = b.load.grants)
    (hq : c.load.queue = b.load.queue) : b.SameLists c := by
  refine ⟨fun st => ?_, hg, hq⟩
  cases st <;> simp [Blocks.stage, *]

theorem Blocks.modPocket_sameLists (b : Blocks) (p : Pocket) (f : PocketUnit → PocketUnit)
    (h : ∀ u, (f u).stage1 = u.stage1 ∧ (f u).stage2 = u.stage2) : b.SameLists (b.modPocket p f) := by
  cases p <;> exact Blocks.sameLists_of_eq (by simp [Blocks.modPocket, h]) (by simp [Blocks.modPocket, h])
    (by simp [Blocks.modPocket, h]) (by simp [Blocks.modPocket, h]) rfl rfl

theorem Blocks.modCycle_sameLists (b : Blocks) (p : Pocket) (f : Cycle → Cycle) : b.SameLists (b.modCycle p f) :=
  b.modPocket_sameLists p _ fun _ => ⟨rfl, rfl⟩

theorem Blocks.modDrum_sameLists (b : Blocks) (p : Pocket) (f : Drum → Drum) : b.SameLists (b.modDrum p f) :=
  b.modPocket_sameLists p _ fun _ => ⟨rfl, rfl⟩

theorem Blocks.modDryness_sameLists (b : Blocks) (p : Pocket) (f : Dryness → Dryness) : b.SameLists (b.modDryness p f) :=
  b.modPocket_sameLists p _ fun _ => ⟨rfl, rfl⟩

theorem Blocks.modChannel_sameLists (b : Blocks) (ch : Sensor) (f : Channel → Channel) :
    b.SameLists (b.modChannel ch f) := by
  cases ch with
  | exhaust p => exact b.modPocket_sameLists p _ fun _ => ⟨rfl, rfl⟩
  | inlet => exact Blocks.SameLists.refl b

theorem Blocks.modLoad_sameLists (b : Blocks) (f : LoadShare → LoadShare)
    (h : ∀ l, (f l).grants = l.grants ∧ (f l).queue = l.queue) : b.SameLists (b.modLoad f) :=
  Blocks.sameLists_of_eq rfl rfl rfl rfl (h _).1 (h _).2

theorem Blocks.modMains_sameLists (b : Blocks) (f : Mains → Mains) : b.SameLists (b.modMains f) :=
  b.modLoad_sameLists _ fun _ => ⟨rfl, rfl⟩

theorem Blocks.evaluateWants_sameLists (b : Blocks) (p : Pocket) : b.SameLists (b.evaluateWants p) :=
  ⟨b.evaluateWants_state p, by rw [b.evaluateWants_load], by rw [b.evaluateWants_load]⟩

/-! ## Alerts -/

/-- A cause that becomes pending changes the alert controller and nothing else. -/
theorem Blocks.makePending_alerts (b : Blocks) (k : Cause) :
    b.makePending k = { b with alerts := (b.makePending k).alerts } := by
  unfold Blocks.makePending
  split
  · rfl
  · split <;> rfl

theorem Blocks.makePending_sameLists (b : Blocks) (k : Cause) : b.SameLists (b.makePending k) := by
  rw [b.makePending_alerts k]; exact Blocks.SameLists.refl b

theorem Blocks.raiseCause_sameLists (b : Blocks) (k : Cause) : b.SameLists (b.raiseCause k) := b.makePending_sameLists k

theorem Blocks.present_sameLists (b : Blocks) (k : Cause) : b.SameLists (b.present k) :=
  Blocks.SameLists.trans (Blocks.SameLists.refl b) (Blocks.makePending_sameLists _ k)

theorem Blocks.withdrawCause_sameLists (b : Blocks) (k : Cause) : b.SameLists (b.withdrawCause k) :=
  Blocks.SameLists.refl b

/-! ## The sequencer and the drum drive -/

theorem Blocks.stopDrum_sameLists (b : Blocks) (p : Pocket) : b.SameLists (b.stopDrum p) := b.modDrum_sameLists p _

theorem Blocks.goFaulted_sameLists (b : Blocks) (p : Pocket) : b.SameLists (b.goFaulted p) :=
  (b.modCycle_sameLists p _).trans (Blocks.stopDrum_sameLists _ p)

theorem Blocks.enterIdle_sameLists (b : Blocks) (p : Pocket) : b.SameLists (b.enterIdle p) :=
  (b.modCycle_sameLists p _).trans (Blocks.stopDrum_sameLists _ p)

theorem Blocks.lockoutFault_sameLists (b : Blocks) (p : Pocket) (k : Lockout) : b.SameLists (b.lockoutFault p k) := by
  unfold Blocks.lockoutFault
  split
  · exact Blocks.SameLists.refl b
  · split <;> first
      | exact b.modCycle_sameLists p _
      | exact (b.modCycle_sameLists p _).trans (Blocks.goFaulted_sameLists _ p)
      | exact Blocks.SameLists.refl b

theorem Blocks.entryLockout_sameLists (b : Blocks) (p : Pocket) : b.SameLists (b.entryLockout p) := by
  unfold Blocks.entryLockout
  split
  · exact Blocks.SameLists.refl b
  · split
    · exact Blocks.SameLists.refl b
    · exact b.lockoutFault_sameLists p _
    · exact Blocks.lockoutFault_sameLists { b with draws := b.draws + 1 } p _

theorem Blocks.answerDrumFault_sameLists (b : Blocks) (p : Pocket) : b.SameLists (b.answerDrumFault p) := by
  unfold Blocks.answerDrumFault
  split
  · exact b.modCycle_sameLists p _
  · exact b.modCycle_sameLists p _
  · exact (b.modCycle_sameLists p _).trans (Blocks.goFaulted_sameLists _ p)

theorem Blocks.drumFault_sameLists (b : Blocks) (p : Pocket) (k : DrumFault) : b.SameLists (b.drumFault p k) :=
  ((b.modDrum_sameLists p _).trans (Blocks.raiseCause_sameLists _ _)).trans (Blocks.answerDrumFault_sameLists _ p)

theorem Blocks.enterCooling_sameLists (b : Blocks) (p : Pocket) (flag : Option EndFlag) :
    b.SameLists (b.enterCooling p flag) := (b.modCycle_sameLists p _).trans (Blocks.entryLockout_sameLists _ p)

theorem Blocks.pausePocket_sameLists (b : Blocks) (p : Pocket) : b.SameLists (b.pausePocket p) := by
  unfold Blocks.pausePocket
  split
  · exact b.goFaulted_sameLists p
  · exact ((b.modCycle_sameLists p _).trans (Blocks.stopDrum_sameLists _ p)).trans (Blocks.entryLockout_sameLists _ p)

theorem Blocks.enterDone_sameLists (b : Blocks) (p : Pocket) : b.SameLists (b.enterDone p) :=
  ((b.modCycle_sameLists p _).trans (Blocks.stopDrum_sameLists _ p)).trans (Blocks.raiseCause_sameLists _ _)

theorem Blocks.enterCreaseGuard_sameLists (b : Blocks) (p : Pocket) : b.SameLists (b.enterCreaseGuard p) :=
  (((b.modCycle_sameLists p _).trans (Blocks.stopDrum_sameLists _ p)).trans (Blocks.modDrum_sameLists _ p _)).trans
    (Blocks.entryLockout_sameLists _ p)

theorem Blocks.coolEnd_sameLists (b : Blocks) (p : Pocket) : b.SameLists (b.coolEnd p) := by
  unfold Blocks.coolEnd
  dsimp only
  split
  · exact b.goFaulted_sameLists p
  · split
    · exact b.enterIdle_sameLists p
    · split
      · exact b.enterCreaseGuard_sameLists p
      · exact b.enterDone_sameLists p

theorem Blocks.judgeTimeLimit_sameLists (b : Blocks) (p : Pocket) : b.SameLists (b.judgeTimeLimit p) := by
  unfold Blocks.judgeTimeLimit
  dsimp only
  split
  · split <;> first | exact b.enterCooling_sameLists p _ | exact Blocks.SameLists.refl b
  · exact Blocks.SameLists.refl b

theorem Blocks.runReport_sameLists (b : Blocks) (p : Pocket) : b.SameLists (b.runReport p) := by
  unfold Blocks.runReport
  dsimp only
  split
  · exact ((b.modCycle_sameLists p _).trans (Blocks.entryLockout_sameLists _ p)).trans
      (Blocks.judgeTimeLimit_sameLists _ p)
  · exact Blocks.SameLists.refl b

theorem Blocks.dryReport_sameLists (b : Blocks) (p : Pocket) (e : Nat) : b.SameLists (b.dryReport p e) := by
  unfold Blocks.dryReport
  dsimp only
  split
  · split
    · exact (b.modCycle_sameLists p _).trans (Blocks.enterCooling_sameLists _ p _)
    · exact (b.modCycle_sameLists p _).trans (Blocks.entryLockout_sameLists _ p)
  · exact Blocks.SameLists.refl b

theorem Blocks.tangleReport_sameLists (b : Blocks) (p : Pocket) : b.SameLists (b.tangleReport p) := by
  unfold Blocks.tangleReport
  split <;> first | exact b.pausePocket_sameLists p | exact Blocks.SameLists.refl b

theorem Blocks.doorOpens_sameLists (b : Blocks) (p : Pocket) : b.SameLists (b.doorOpens p) := by
  unfold Blocks.doorOpens
  split <;> first
    | exact b.pausePocket_sameLists p
    | exact b.enterIdle_sameLists p
    | exact Blocks.SameLists.refl b

theorem Blocks.lintRemoved_sameLists (b : Blocks) (p : Pocket) : b.SameLists (b.lintRemoved p) := by
  unfold Blocks.lintRemoved
  split <;> first | exact b.pausePocket_sameLists p | exact Blocks.SameLists.refl b

theorem Blocks.panelStopPocket_sameLists (b : Blocks) (p : Pocket) : b.SameLists (b.panelStopPocket p) := by
  unfold Blocks.panelStopPocket
  split <;> first
    | exact Blocks.SameLists.refl b
    | (split <;> first | exact b.goFaulted_sameLists p | exact b.enterIdle_sameLists p)

theorem Blocks.panelStop_sameLists (b : Blocks) : b.SameLists b.panelStop :=
  (Blocks.SameLists.trans (c := { b with contacts := { b.contacts with chord := .spent } }) (Blocks.SameLists.refl b)
    (Blocks.panelStopPocket_sameLists _ .a)).trans (Blocks.panelStopPocket_sameLists _ .b)

theorem Blocks.judgeChord_sameLists (b : Blocks) : b.SameLists b.judgeChord := by
  unfold Blocks.judgeChord
  split
  · exact b.panelStop_sameLists
  · exact Blocks.SameLists.refl b

theorem Blocks.beginAllowance_sameLists (b : Blocks) (p : Pocket) : b.SameLists (b.beginAllowance p) :=
  b.modLoad_sameLists _ fun _ => by cases p <;> exact ⟨rfl, rfl⟩

theorem Blocks.trySpinUp_sameLists (b : Blocks) (p : Pocket) : b.SameLists (b.trySpinUp p) := by
  unfold Blocks.trySpinUp
  dsimp only
  split
  · split
    · exact b.drumFault_sameLists p _
    · exact (b.modDrum_sameLists p _).trans (Blocks.beginAllowance_sameLists _ p)
  · exact Blocks.SameLists.refl b

theorem Blocks.runRequest_sameLists (b : Blocks) (p : Pocket) : b.SameLists (b.runRequest p) :=
  (b.modDrum_sameLists p _).trans (Blocks.trySpinUp_sameLists _ p)

theorem Blocks.burstRequest_sameLists (b : Blocks) (p : Pocket) : b.SameLists (b.burstRequest p) :=
  (b.modDrum_sameLists p _).trans (Blocks.trySpinUp_sameLists _ p)

theorem Blocks.judgeRunEnd_sameLists (b : Blocks) (p : Pocket) : b.SameLists (b.judgeRunEnd p) := by
  unfold Blocks.judgeRunEnd
  dsimp only
  split
  · split
    · exact b.modDrum_sameLists p _
    · exact Blocks.SameLists.refl b
  · exact Blocks.SameLists.refl b

theorem Blocks.enterRun_sameLists (b : Blocks) (p : Pocket) : b.SameLists (b.enterRun p) := by
  unfold Blocks.enterRun
  dsimp only
  split
  · exact ((b.modDrum_sameLists p _).trans (Blocks.runReport_sameLists _ p)).trans (Blocks.judgeRunEnd_sameLists _ p)
  · exact (b.modDrum_sameLists p _).trans (Blocks.judgeRunEnd_sameLists _ p)

theorem Blocks.enterStopped_sameLists (b : Blocks) (p : Pocket) : b.SameLists (b.enterStopped p) :=
  ((b.modDrum_sameLists p _).trans (Blocks.judgeChord_sameLists _)).trans (Blocks.trySpinUp_sameLists _ p)

theorem Blocks.judgeCoast_sameLists (b : Blocks) (p : Pocket) : b.SameLists (b.judgeCoast p) := by
  unfold Blocks.judgeCoast
  dsimp only
  split
  · exact b.enterStopped_sameLists p
  · exact Blocks.SameLists.refl b

/-! ## An event that ends in settling -/

/-- An event that answers blocks changed and then settled ends on those blocks, if it leaves the lists alone. -/
theorem State.settlesAs_of_settle {s : State} {c : Instr} {next : Blocks → State} {changed before : Blocks}
    (answers : exec c s = .next (next changed.settle)) (same : changed = before)
    (lists : s.blocks.SameLists changed) : s.SettlesAs c next before :=
  ⟨same ▸ answers, fun h => same ▸ changed.settle_settled (lists.listsAgree h)⟩

/-! ## Frames that meet no service access -/

/-- With no access at the arbiter, a frame's beginning asserts select and opens the frame's own state. -/
theorem State.beginFrame_of_noAccess (s : State) (h : s.path.access = none) :
    s.beginFrame =
      { s with
        pins := { s.pins with select := true }
        path := { s.path with frame := some { seqA := none, seqB := none, seqCommon := none } } } := by
  simp [State.beginFrame, State.assertSelect, State.modPath, h]

/-- A service command that the unit takes is carried out. -/
theorem State.execute_of_takes {s : State} {bytes : List Byte} (h : s.Takes bytes) (f : State → State) :
    s.execute bytes f = f (s.modService fun u => u.beginCommand bytes) := by
  simp [State.execute, State.whileRunning, h.1, h.2]

end Sys2Proof.Machine
end

