-- ==== Sys2Proof/Laws/Ram.lean ====
section
/-! SUPPORT. The external RAM: a write keeps the canonical form, a read after it gives the value written, and every other address reads as before. -/

namespace Sys2Proof.Machine

theorem Memory.wfFrom_mono {lo lo' : Nat} {ram : List Host.Cell} (h : Memory.wfFrom lo ram = true) (le : lo' ≤ lo) :
    Memory.wfFrom lo' ram = true := by
  cases ram with
  | nil => rfl
  | cons c rest =>
    obtain ⟨k, v⟩ := c
    simp only [Memory.wfFrom, Bool.and_eq_true, decide_eq_true_eq] at h ⊢
    exact ⟨⟨⟨by omega, h.1.1.2⟩, h.1.2⟩, h.2⟩

/-- Nothing is listed below the bound. -/
theorem readRam_below {lo a : Nat} {ram : List Host.Cell} (h : Memory.wfFrom lo ram = true) (lt : a < lo) :
    readRam ram a = Config.ramUnwritten := by
  induction ram generalizing lo with
  | nil => rfl
  | cons c rest ih =>
    obtain ⟨k, v⟩ := c
    simp only [Memory.wfFrom, Bool.and_eq_true, decide_eq_true_eq] at h
    have : k ≠ a := by omega
    simp only [readRam, if_neg this]
    exact ih h.2 (by omega)

theorem writeRam_wfFrom {lo a : Nat} (v : Byte) {ram : List Host.Cell} (h : Memory.wfFrom lo ram = true) (ge : lo ≤ a)
    (lt : a < 0x20000) : Memory.wfFrom lo (writeRam a v ram) = true := by
  induction ram generalizing lo with
  | nil =>
    unfold writeRam
    split
    · rfl
    · simp [Memory.wfFrom, *]
  | cons c rest ih =>
    obtain ⟨k, w⟩ := c
    have h0 := h
    simp only [Memory.wfFrom, Bool.and_eq_true, decide_eq_true_eq] at h
    unfold writeRam
    split
    · split
      · exact h0
      · simp only [Memory.wfFrom, Bool.and_eq_true, decide_eq_true_eq]
        exact ⟨⟨⟨ge, lt⟩, ‹_›⟩, ⟨⟨by omega, h.1.1.2⟩, h.1.2⟩, h.2⟩
    · split
      · rename_i e; subst e
        split
        · exact Memory.wfFrom_mono h.2 (by omega)
        · simp only [Memory.wfFrom, Bool.and_eq_true, decide_eq_true_eq]
          exact ⟨⟨⟨ge, lt⟩, ‹_›⟩, h.2⟩
      · simp only [Memory.wfFrom, Bool.and_eq_true, decide_eq_true_eq]
        exact ⟨⟨⟨h.1.1.1, h.1.1.2⟩, h.1.2⟩, ih h.2 (by omega)⟩

/-- A write keeps the canonical form. -/
theorem writeRam_wf {a : Nat} (v : Byte) {ram : List Host.Cell} (h : Memory.wf ram = true) (lt : a < 0x20000) :
    Memory.wf (writeRam a v ram) = true := writeRam_wfFrom v h (Nat.zero_le a) lt

/-- A run of writes keeps the canonical form. -/
theorem writeRamBytes_wf (addr : BitVec 17) (data : List Byte) {ram : List Host.Cell} (h : Memory.wf ram = true) :
    Memory.wf (writeRamBytes addr data ram) = true := by
  induction data generalizing addr ram with
  | nil => exact h
  | cons v rest ih => exact ih _ (writeRam_wf v h addr.isLt)

theorem readRam_writeRam_from {lo a : Nat} (v : Byte) (x : Nat) {ram : List Host.Cell}
    (h : Memory.wfFrom lo ram = true) : readRam (writeRam a v ram) x = if x = a then v else readRam ram x := by
  induction ram generalizing lo with
  | nil =>
    unfold writeRam
    split
    · simp [readRam, *]
    · by_cases e : x = a
      · simp [readRam, e]
      · simp [readRam, e, Ne.symm e]
  | cons c rest ih =>
    obtain ⟨k, w⟩ := c
    simp only [Memory.wfFrom, Bool.and_eq_true, decide_eq_true_eq] at h
    unfold writeRam
    split
    · rename_i lt
      split
      · by_cases e : x = a
        · subst e
          have : k ≠ x := by omega
          simp only [readRam, if_neg this, if_true]
          rw [readRam_below h.2 (by omega)]; simp_all
        · simp [e]
      · by_cases e : x = a
        · simp [readRam, e]
        · simp [readRam, e, Ne.symm e]
    · split
      · rename_i e; subst e
        split
        · by_cases e : x = a
          · subst e
            rw [readRam_below h.2 (by omega)]; simp_all
          · simp [readRam, e, Ne.symm e]
        · by_cases e : x = a
          · simp [readRam, e]
          · simp [readRam, e, Ne.symm e]
      · rename_i ne
        by_cases e : x = k
        · subst e
          have : x ≠ a := fun c => ne c.symm
          simp [readRam, this]
        · simp only [readRam, if_neg (Ne.symm e)]
          exact ih h.2

/-- What a write does: the address written reads as the value, every other one as before. -/
theorem readRam_writeRam (a : Nat) (v : Byte) (x : Nat) {ram : List Host.Cell} (h : Memory.wf ram = true) :
    readRam (writeRam a v ram) x = if x = a then v else readRam ram x := readRam_writeRam_from v x h

end Sys2Proof.Machine
end

