-- ==== Sys2Proof/Tests/Slice0.lean ====
section
/-! SUPPORT. The model's own tests: ill-formed commands refused, the manual's worked figures, and for every statement with hypotheses a state and operands that meet them. -/

namespace Sys2Proof.Tests

set_option Elab.async false

open Sys2Proof Sys2Proof.Machine

/-! ## Ill-formed commands -/

/-- A frame's end with this many bits of a byte cut short. -/
def cutAfter (bits : Nat) : FrameEnd (List Bool) := { cut := List.replicate bits true, again := false }

theorem test_store_cut_of_eight_bits_refused : (Instr.storeFrame 0 [] (cutAfter 8)).wellFormed = false := by decide
theorem test_fetch_cut_of_eight_bits_refused : (Instr.fetchFrame 0 1 ⟨8, false⟩).wellFormed = false := by decide
theorem test_opaque_without_a_byte_refused : (Instr.opaqueFrame [] (cutAfter 1) ⟨[], []⟩).wellFormed = false := by decide
theorem test_opaque_cut_of_eight_bits_refused : (Instr.opaqueFrame [1] (cutAfter 8) ⟨[], []⟩).wellFormed = false := by
  decide
theorem test_opaque_answer_cut_of_eight_bits_refused :
    (Instr.opaqueFrame [1] .clean ⟨[], List.replicate 8 true⟩).wellFormed = false := by decide
theorem test_short_of_four_bytes_refused : (Instr.shortFrame [1, 2, 3, 4] .clean).wellFormed = false := by decide
theorem test_short_cut_of_eight_bits_refused : (Instr.shortFrame [1] (cutAfter 8)).wellFormed = false := by decide
theorem test_collision_after_sixteen_bytes_refused :
    (Instr.serviceAccessCollided 16 [] .clean ⟨[], []⟩).wellFormed = false := by decide
theorem test_collision_cut_of_eight_bits_refused :
    (Instr.serviceAccessCollided 0 [] (cutAfter 8) ⟨[], []⟩).wellFormed = false := by decide
theorem test_collision_answer_cut_of_eight_bits_refused :
    (Instr.serviceAccessCollided 0 [] .clean ⟨[], List.replicate 8 true⟩).wellFormed = false := by decide
theorem test_known_code_is_no_unknown_command : (Instr.unknownCommand 9).wellFormed = false := by decide
theorem test_poke_with_a_byte_missing_refused : (Instr.poke ⟨0, true⟩ 2 [1]).wellFormed = false := by decide
theorem test_opt_write_with_data_beyond_its_count_refused : (Instr.optWrite 0 17 [1]).wellFormed = false := by decide
theorem test_well_formed_commands_accepted :
    (Instr.storeFrame 0 [1] ⟨[true], true⟩).wellFormed = true ∧ (Instr.poke ⟨0, false⟩ 2 [1, 2]).wellFormed = true ∧
      (Instr.unknownCommand 10).wellFormed = true := by decide

/-! ## The manual's figures -/

/-- The stored row of the machine in `State.reset` passes the check (R170). -/
theorem test_factory_row_is_valid : checkRow Config.factoryRow = .valid := by decide +kernel

/-- A row of zeros is an OPTION_FAULT (R170). -/
theorem test_zero_row_is_an_option_fault : checkRow (List.replicate 128 0) = .optionFault := by decide +kernel

theorem test_reset_ram_is_canonical : Memory.wf State.reset.ram = true := by decide

/-- The translation figures printed under R76. -/
theorem test_translation_figures :
    [8, 300, 380, 500, 640, 700, 1015, 1023].map (translate Config.factoryRow) =
      [392, 191, 162, 124, 82, 64, -75, -79] := by decide +kernel

/-- The worked example of the ring after a reset (R77). -/
theorem test_ring_after_a_reset :
    ([124, 126, 127, 129, 130].foldl Channel.update Channel.reset).filtered = some 128 ∧
      filterRing [-3, -2, -2, -2] = -3 := by decide

/-- The speeds of the table under R54. -/
theorem test_speeds :
    [2000, 10000, 12000, 12500, 15000, 16000, 30000].map speedOf = [255, 60, 50, 48, 40, 37, 20] := by decide

/-- Periods are truncated and kept within 1..65535 (R53). -/
theorem test_periods :
    measuredPeriod 1250099 0 = 12500 ∧ measuredPeriod 99 0 = 1 ∧ measuredPeriod 7000000 0 = 65535 := by decide

/-- The extension of the worked example of section 2.13: Th 2400 s, MARGIN 32 (R129). -/
theorem test_extension : extensionOf 2400 32 = 300 ∧ extensionOf 65535 255 = 1800 := by decide

/-- A full window saturates X, and the move truncates toward zero (R124). -/
theorem test_window_values : windowValue 256 = 65535 ∧ windowValue 1 = 256 ∧ nextWetness 16 0 65535 = 49152 := by decide

/-- A temperature that is absent, and one at the low end (R181). -/
theorem test_temperature_bytes : temperatureBytes none = [0x00, 0x80] ∧ temperatureBytes (some (-75)) = [0xB5, 0xFF] ∧
    temperatureByte (some 200) = 127 ∧ temperatureByte none = 0x80 := by decide

/-- The records of the report page have their sizes (R177 to R179). -/
theorem test_record_sizes :
    (liveRecord State.reset (.pocket .a)).length = 64 ∧ (liveRecord State.reset .common).length = 32 ∧
      (liveRecord State.reset .faults).length = 96 := by decide +kernel

/-! ## The machine the witnesses stand in -/

/-- All fittings closed and settled, the two chord buttons released. -/
def closed : Contacts :=
  { inputs := List.replicate 10 { Input.reset with level := .active } ++
      List.replicate 2 { Input.reset with level := .inactive }
    chord := .inactive, chordTimer := 0 }

/-- The machine after reset with its contacts settled. -/
def base : State := { State.reset with blocks := { State.reset.blocks with contacts := closed } }

/-- That machine with pocket A's context in a state, and its drum in one. -/
def at_ (st : CycleState) (d : DrumState := .run) : State :=
  base.modBlocks fun b =>
    (b.modCycle .a fun c => { c with state := st }).modDrum .a fun u => { u with state := d, confirmed := false }

/-- The same with the pocket's unit changed further. -/
def with_ (st : CycleState) (d : DrumState) (f : PocketUnit → PocketUnit) : State :=
  (at_ st d).modBlocks fun b => b.modPocket .a f

/-- Service hold stands, both pockets held from a state. -/
def held (from_ : CycleState) : State :=
  base.modBlocks fun b =>
    ((({ b with held := true } : Blocks).modCycle .a fun c => { c with state := .held, holdFrom := some from_ }).modCycle
      .b fun c => { c with state := .held, holdFrom := some .idle })

/-- A machine once its inputs can have settled: 20.1 ms after step 5 (R140). -/
def later (s : State) : State := s.modBlocks fun b => { b with clock := 20100 }

/-- The service line unit in READY. -/
def tool (s : State) : State := s.modService fun u => { u with receiver := .ready }

/-- The service line unit in a state of the receiver. -/
def line (r : Receiver) (f : ServiceUnit → ServiceUnit := id) : State :=
  base.modService fun u => f { u with receiver := r }

/-- A service access at the arbiter. -/
def access (kind : AccessKind) (phase : AccessPhase) : Access :=
  { newAccess kind 0x10 2 [7, 8] with phase := phase }

def accessing (kind : AccessKind) (phase : AccessPhase) : State :=
  base.modPath fun u => { u with access := some (access kind phase) }

/-- What an answer's next state holds of something. -/
def after {α : Type} (o : Host.Outcome State Fault Refusal) (f : State → α) : Option α :=
  match o with
  | .next t => some (f t)
  | _ => none

/-- A START stored by a frame begins the cycle and the spin-up (R22, R57). -/
theorem test_start_spins_up :
    after (exec (.start .a 1) base)
        (fun t => (t.blocks.pocketA.cycle.state, t.blocks.pocketA.drum.state, t.path.resultA.action)) =
      some (.starting, .spinup, .accepted) := by decide +kernel

/-- A door that opens pauses a drying pocket (R39), but no change is found in the first 20 ms (R140). -/
theorem test_door_pauses :
    after (exec (.debouncedChange 3 true) (at_ .drying)) id = some (at_ .drying) ∧
    after (exec (.debouncedChange 3 true) (later (at_ .drying)))
        (fun t => (t.blocks.pocketA.cycle.state, t.blocks.pocketA.cycle.resume, t.blocks.pocketA.drum.state)) =
      some (.paused, some .drying, .coast) := by decide +kernel

/-- The clear threshold of the worked example of section 2.14: 10.0 °C below OPT_HEAT_LIMIT, here 340 (R27). -/
theorem test_clear_after_overheat :
    (with_ .faulted .stopped fun u => { u with exhaust := { u.exhaust with filtered := some 319 } }).blocks.causeGone .a
        .overheat = true ∧
      (with_ .faulted .stopped fun u => { u with exhaust := { u.exhaust with filtered := some 320 } }).blocks.causeGone .a
        .overheat = false := by decide +kernel

/-- A STATUS on a fresh line answers five zero bytes (R163). -/
theorem test_status_after_reset :
    after (exec .status (tool base)) (fun t => t.service.answer) = some (some (List.replicate 40 false)) := by
  decide +kernel

/-! ## Witnesses: the step, the laws, resets -/

theorem witness_StepRunsFrontCommand :
    ({ base with pending := [.status, .hold] } : State).pending = Instr.status :: [.hold] := rfl

theorem witness_EmptyQueueStepIsOneClockCycle :
    (base.pending = [] ∧ base.phase = .running) ∧ ({ base with phase := .off } : State).phase = .off ∧
      ({ base with phase := .startUpWait .pin 63999 } : State).phase = .startUpWait .pin 63999 := by decide

/-- After reset no stage is in a list and every stage is OFF. -/
theorem base_listsAgree : base.blocks.ListsAgree :=
  ⟨by decide, by decide, fun st => by cases st <;> decide⟩

theorem witness_EveryStepKeepsRamCanonical :
    Memory.wf base.ram = true ∧ ∃ t, step { base with pending := [.keepalive .a 1] } = .next t := ⟨by decide, _, rfl⟩

/-- The machine with its heat items settled, a crossing waiting. -/
def settled : State := { base with pending := [.zeroCrossing 200], blocks := base.blocks.settle }

theorem witness_EveryStepKeepsHeatLaw : settled.HeatLaw ∧ settled.phase = .running ∧ ∃ t, step settled = .next t :=
  ⟨fun _ => Blocks.settle_settled _ base_listsAgree, rfl, _, rfl⟩

/-- A settled machine with a granted stage: pocket A dries with its drum in RUN and stage A1 wanted. -/
def granted : Blocks :=
  ((with_ .drying .run fun u => { u with stage1 := { u.stage1 with want := true } }).blocks).settle

theorem witness_EveryStepKeepsHeatLaw_granted : granted.HeatSettled ∧ Stage.a1 ∈ granted.load.grants :=
  ⟨Blocks.settle_settled _ ⟨by decide, by decide, fun st => by cases st <;> decide⟩, by decide +kernel⟩

theorem witness_EveryStepKeepsDrynessLaw :
    base.DrynessLaw ∧ ∃ t, step { base with pending := [.electrodeSample .a 600] } = .next t :=
  ⟨fun p => by cases p <;> (unfold Dryness.Lawful; decide), _, rfl⟩

theorem witness_EveryStepKeepsFaultListLaw :
    (base.modBlocks fun b => b.raiseCause (.drum .a)).FaultListLaw ∧
      ∃ t, step { base.modBlocks (fun b => b.raiseCause (.drum .a)) with pending := [.mainsLost] } = .next t :=
  ⟨⟨by decide +kernel, rfl⟩, _, rfl⟩

theorem witness_EveryStepKeepsCycleLaw :
    base.CycleLaw ∧ ∃ t, step { base with pending := [.start .a 1] } = .next t :=
  ⟨fun p => by cases p <;> (refine ⟨⟨?_, ?_, ?_, ?_, ?_, ?_, ?_⟩, ?_⟩ <;> simp [base, State.reset, Blocks.pocket,
    PocketUnit.reset, Cycle.reset]), _, rfl⟩

/-- A drum that stands still, its stop confirmed and RUN held for it in REV, spins up when its silence is complete. -/
def reversing : State :=
  { with_ .starting .stopped (fun u => { u with drum := { u.drum with request := .run, nextDir := .rev, silence := 2999 } })
    with pending := [.silenceExpiry .a] }

theorem witness_DirectionChangesOnlyWithMotorOff :
    (reversing.blocks.pocket .a).drum.dir = .fwd ∧
      after (step reversing) (fun t => (t.blocks.pocket .a).drum.dir) = some .rev := by decide +kernel

theorem witness_StartUpGivesResetValues :
    ({ base with phase := .startUpWait .pin 63999 } : State).phase = .startUpWait .pin 63999 ∧
      base.blocks.optionState = .valid ∧
      (base.modBlocks fun b => { b with optionState := .optionFault }).blocks.optionState = .optionFault := by decide

theorem witness_ResetsBeginAtOnce :
    (base.path.access = none ∧ base.nvWrite = none ∧ base.phase ≠ .off) ∧
      ((base.modService fun u => { u with resetDue := true }).phase = .running ∧
        (base.modService fun u => { u with resetDue := true }).service.resetDue = true) ∧
      ({ base with phase := .pinHeld } : State).phase = .pinHeld ∧
      (accessing .poke .inFlight).path.access = some (access .poke .inFlight) ∧
      (access .poke .inFlight).phase = .inFlight ∧ (access .poke .inFlight).kind = .poke ∧
      1 ≤ (access .poke .inFlight).count ∧ (access .poke (.waiting 3)).phase ≠ .inFlight ∧
      (access .peek .inFlight).kind = .peek := by decide

/-! ## Witnesses: the memory path -/

theorem witness_StoreFrameReachesRam :
    (base.phase ≠ .off ∧ base.path.access = none) ∧
      ((accessing .peek (.waiting 3)).path.access = some (access .peek (.waiting 3)) ∧
        (access .peek (.waiting 3)).phase ≠ .inFlight) ∧
      (∀ off ∈ [0x18, 0x3F, 0x58, 0x7F, 0x88, 0xFF],
        pageOffset base.blocks.demandBase (startAddress (base.demandAddress off)) = some off) ∧
      pageOffset base.blocks.demandBase (startAddress (base.demandAddress 0xFF) + 1) = none ∧
      ({ base with path := { base.path with interpreting := false } } : State).captures = false := by decide +kernel

theorem witness_RamReadsWhatWasStored : Memory.wf [⟨5, 7⟩] = true ∧ [(1 : Byte), 2].length ≤ 0x20000 := by decide

theorem witness_StoresAreStagedUntilANewSeq :
    (base.phase ≠ .off ∧ base.path.access = none ∧ base.captures = true) ∧
      (pageOffset base.blocks.demandBase (startAddress (base.demandAddress 0x47)) = some 0x47 ∧
        demandByte 0x47 = .field (.pocket .b) 7) ∧
      (pageOffset base.blocks.demandBase (startAddress (base.demandAddress 0x80)) = some 0x80 ∧
        demandByte 0x80 = .seq .common ∧ (base.path.staging .common).lastSeq = 0) := by decide +kernel

/-- A run of bytes goes on from address to address, and from 0x1FFFF to 0x00000 (R2, R4). -/
theorem test_store_of_a_run :
    let places := [0x02, 0x03, 0x18, 0x80].map fun off =>
      (pageOffset base.blocks.demandBase (base.blocks.demandBase + BitVec.ofNat 17 off)).map demandByte
    places = [some (.keepalive .a), some (.field (.pocket .a) 3), some .ordinary, some (.seq .common)] ∧
      (let t := base.storeBytes 0x1FFFF [7, 8]
       readRam t.ram 0x1FFFF = 7 ∧ readRam t.ram 0 = 8) := by decide +kernel

theorem witness_KeepaliveReloadsFreshness : base.phase ≠ .off ∧ base.path.access = none ∧ base.captures = true := by
  decide +kernel

/-- That machine with one field of pocket A staged with a value, its bytes touched. -/
def staged (f : PocketField) (v : Nat) (s : State) : State :=
  let st := s.path.staging (.pocket .a)
  s.modPath fun u => u.setStaging (.pocket .a)
    { st with
      bytes := setBytes st.bytes f.offset f.size v
      touched := st.touched.take f.offset ++ List.replicate f.size true ++ st.touched.drop (f.offset + f.size) }

/-- Every row of the field table has its bytes in the record, and a two-byte field can be untouched, torn and whole (R7,
R175). -/
theorem witness_FieldsAreJudgedByTheTouchedMap :
    (PocketField.mode, 1, 0x03, 1, 0, 1) ∈
        [(PocketField.mode, 1, 0x03, 1, 0, 1), (PocketField.timeLimit, 6, 0x08, 2, 1, 120)] ∧
      (∀ f ∈ pocketFields, f.offset + f.size ≤ 0x18 ∧ 0x18 ≤ (base.path.staging (.pocket .a)).touched.length) ∧
      true ∉ ((base.path.staging (.pocket .a)).touched.drop 0x08).take 2 ∧
      (true ∈ [true, false] ∧ false ∈ [true, false]) ∧
      true ∈ (((staged .timeLimit 1 base).path.staging (.pocket .a)).touched.drop 0x08).take 2 ∧
      false ∉ (((staged .timeLimit 1 base).path.staging (.pocket .a)).touched.drop 0x08).take 2 := by decide +kernel

theorem witness_CommitTakesTheRecord :
    base.phase = .running ∧ base.captures = true ∧ base.path.access = none ∧ base.blocks.ListsAgree ∧
      (base.path.staging (.pocket .b)).touched.getD 1 false = false ∧ (base.path.staging (.pocket .b)).lastSeq ≠ 1 ∧
      (base.blocks.pocket .b).cycle.state = .idle ∧ (base.blocks.pocket .b).drum.state = .stopped :=
  ⟨rfl, by decide +kernel, rfl, base_listsAgree, by decide, by decide, by decide, by decide⟩

/-- Each field that a take compares can be the only one taken, at both ends of its range (R28, R71, R84). -/
theorem witness_CommitTakesTheRecord_only :
    (∀ f ∈ [PocketField.timeLimit, .coolTime, .coolSet, .fwdRun, .revRun, .pause, .speedLow, .heatSet, .heatBand,
        .stage2Offset, .heatLevel], ∀ v ∈ [f.range.1, f.range.2],
      (judgeFields (base.blocks.pocket .a) ((staged f v base).path.staging (.pocket .a))).taken = [f] ∧
        ((staged f v base).path.staging (.pocket .a)).touched.getD 1 false = false) ∧
      ((staged .timeLimit 1 base).captures = true ∧ (staged .timeLimit 1 base).path.access = none) ∧
      (judgeFields (base.blocks.pocket .a) ((staged .crease 0 base).path.staging (.pocket .a))).taken = [.crease] ∧
      (((at_ .cooling).blocks.pocket .a).cycle.state = .cooling ∧ ((at_ .cooling).blocks.pocket .a).exhaust.fault = none ∧
        ((at_ .cooling).blocks.pocket .a).exhaust.filtered = none) ∧ (at_ .drying).blocks.OneCause .a :=
  ⟨by decide +kernel, by decide +kernel, by decide +kernel, by decide +kernel, Or.inr (by decide +kernel)⟩

/-- One frame can store new SEQ values to both pocket records, each record to be taken (R6). -/
theorem witness_CommitTakesTheRecord_several :
    let data : List Byte := 1 :: List.replicate 63 0 ++ [2]
    let place := fun i => pageOffset base.blocks.demandBase (startAddress (base.demandAddress 0) + BitVec.ofNat 17 i)
    (base.phase ≠ .off ∧ base.captures = true ∧ base.path.access = none) ∧
      (data[0x00]? = some 1 ∧ place 0x00 = some (recordOffset (.pocket .a)) ∧
        (base.path.staging (.pocket .a)).lastSeq ≠ 1 ∧ ∀ k < data.length, 0 < k → place k ≠ some 0x00) ∧
      data[0x40]? = some 2 ∧ place 0x40 = some (recordOffset (.pocket .b)) ∧
        (base.path.staging (.pocket .b)).lastSeq ≠ 2 ∧ ∀ k < data.length, 0x40 < k → place k ≠ some 0x40 := by
  decide +kernel

/-- The fields of a take come into effect before its ACTION is answered (R8): a MODE taken with a START is the cycle's, and
one taken with an ABORT of a drying is refused. -/
theorem test_fields_come_before_the_action :
    after (exec (.start .a 1) (staged .mode 1 base))
      (fun t => (t.blocks.pocketA.cycle.state, t.blocks.pocketA.tuning.mode, t.path.resultA.refused)) =
        some (.starting, 1, 0) ∧
    after (exec (.abort .a 1) (staged .mode 1 (at_ .drying)))
      (fun t => (t.blocks.pocketA.cycle.state, t.blocks.pocketA.tuning.mode, t.path.resultA.refused)) =
        some (.cooling, 0, 1) := by decide +kernel

/-- A take of TIME_LIMIT ends a drying that has lasted 60 s (R31), and one of PAUSE a coast that has lasted 2 s (R67). -/
theorem test_take_compares :
    after (exec (.storeFrame (base.demandAddress 0) [1] .clean)
        (staged .timeLimit 1 (with_ .drying .run fun u => { u with cycle := { u.cycle with elapsed := 60 } })))
      (fun t => (t.blocks.pocketA.cycle.state, t.blocks.pocketA.cycle.endFlag)) =
        some (.cooling, some .limitReached) ∧
    after (exec (.storeFrame (base.demandAddress 0) [1] .clean)
        (staged .pause 2 (with_ .idle .coast fun u =>
          { u with drum := { u.drum with confirmed := true, coastTimer := 2000 } })))
      (fun t => t.blocks.pocketA.drum.state) = some .stopped := by decide +kernel

theorem witness_FetchReturnsReportOrRam : base.phase ≠ .off ∧ base.path.access = none ∧ base.interprets = true := by
  decide

/-- The controller fetches the inlet's last raw sample, state and temperatures as the record has them, in VALID and in
OPTION_FAULT (R11, R17, R178, R181; log entry 43). -/
theorem test_fetch_of_the_inlet :
    [OptionState.valid, .optionFault].map (fun state =>
        let s := base.modBlocks fun b =>
          { b with
            optionState := state
            inlet := { b.inlet with lastRaw := 700, translated := some 64, filtered := some (-200) } }
        after (exec (.fetchFrame (s.blocks.reportBase.setWidth 24 + 0x97) 4 ⟨0, false⟩) s) fun t => t.link.toController) =
      [some [0xBC, 0x02, 64, 0x81], some [0xBC, 0x02, 64, 0x81]] := by decide +kernel

theorem witness_UninterpretedFramesPass :
    (base.phase ≠ .off ∧ base.path.access = none) ∧ (0x99 : Byte) ≠ base.blocks.storeCode ∧
      (0x99 : Byte) ≠ base.blocks.fetchCode ∧ [(1 : Byte), 2, 3].length < 4 ∧
      ({ base with path := { base.path with passThrough := true } } : State).interprets = false := by decide +kernel

theorem witness_WaitingAccessStartsOrIsGivenUp :
    ((accessing .peek (.waiting 5)).phase = .running ∧
        (accessing .peek (.waiting 5)).path.access = some (access .peek (.waiting 5)) ∧
        (accessing .peek (.waiting 5)).pins.select = false ∧ (accessing .peek (.waiting 5)).pending = []) ∧
      (access .poke (.waiting 9999)).phase = .waiting 9999 ∧
      ({ accessing .poke (.waiting 9999) with pins := { base.pins with select := true } } : State).pins.select = true := by
  decide

/-- A frame that select follows at once leaves a waiting access waiting, its 10 ms going on, and LINK_BUSY then gives it up
(R13); after a frame that leaves the link free it is not given up. -/
theorem test_link_stays_busy_after_a_frame :
    let frame := fun again => exec (.shortFrame [] { cut := [], again := again }) (accessing .peek (.waiting 9999))
    let givenUp := fun again => match frame again with
      | .next t => after (exec .linkBusy t) fun t => (t.path.access.isSome, t.pins.select)
      | _ => none
    givenUp true = some (false, true) ∧ givenUp false = some (true, false) := by decide +kernel

/-- The end of an abandoned access hands over the one that waited for it, which starts (R13, R162). -/
theorem test_waiting_access_follows_an_abandoned_one :
    after (exec .serviceAccessComplete
        { (base.modPath fun u => { u with access := some { access .poke .inFlight with owned := false } }) with
          service := { base.service with heldAccess := some (access .peek (.waiting 0)) } })
      (fun t => (t.path.access.map Access.kind, t.path.access.map Access.phase, t.service.heldAccess.isSome,
        t.service.answer)) = some (some .peek, some .inFlight, false, none) := by decide +kernel

theorem witness_StartedAccessRunsOrIsCut :
    ((accessing .poke .inFlight).phase = .running ∧
        (accessing .poke .inFlight).path.access = some (access .poke .inFlight) ∧
        (access .poke .inFlight).phase = .inFlight) ∧
      (∀ i, i < (access .poke .inFlight).count →
        pageOffset (accessing .poke .inFlight).blocks.reportBase
          (startAddress (access .poke .inFlight).addr + BitVec.ofNat 17 i) = none) ∧
      ((access .poke .inFlight).kind = .poke ∧ (access .poke .inFlight).data.length = (access .poke .inFlight).count) ∧
      (access .peek .inFlight).kind = .peek ∧ 1 < (access .poke .inFlight).count ∧
      base.blocks.fetchCode ≠ base.blocks.storeCode ∧
      (0x99 : Byte) ≠ base.blocks.storeCode ∧ (0x99 : Byte) ≠ base.blocks.fetchCode := by decide +kernel

/-! ## Witnesses: the actions and the alert controller -/

/-- Every machine built here is ready for a commit of pocket A's record. -/
theorem commitReady_with (st : CycleState) (d : DrumState) (f : PocketUnit → PocketUnit) :
    (with_ st d f).CommitReady (.pocket .a) 24 1 := by
  refine ⟨rfl, ?_, rfl, ⟨rfl, rfl⟩, Nat.zero_ne_one ∘ congrArg BitVec.toNat⟩
  show (base.interprets && _) = true
  rfl

theorem witness_StartBeginsACycle :
    (with_ .done .stopped id).CommitReady (.pocket .a) 24 1 ∧
      (((with_ .done .stopped id).blocks.pocket .a).cycle.state = .done ∧
        (with_ .done .stopped id).blocks.doorClosed .a = true ∧
        (with_ .done .stopped id).blocks.lintPresent .a = true ∧
        ((with_ .done .stopped id).blocks.pocket .a).cycle.lockout = none ∧
        (with_ .done .stopped id).blocks.lockoutConditions .a = []) ∧
      ((with_ .creaseGuard .run id).blocks.pocket .a).cycle.state = .creaseGuard :=
  ⟨commitReady_with .done .stopped id, by decide +kernel, by decide⟩

theorem witness_PauseStopsTheCycle :
    ((with_ .cooling .run id).CommitReady (.pocket .a) 24 1 ∧
        ((with_ .cooling .run id).blocks.pocket .a).cycle.state = .cooling ∧
        (with_ .cooling .run id).blocks.OneCause .a) ∧
      (with_ .idle .stopped id).CommitReady (.pocket .a) 24 1 ∧
      ((with_ .idle .stopped id).blocks.pocket .a).cycle.state = .idle :=
  ⟨⟨commitReady_with _ _ _, by decide, Or.inr (by decide +kernel)⟩, commitReady_with _ _ _, by decide⟩

theorem witness_ResumeTakesTheCycleUp :
    (with_ .paused .stopped id).CommitReady (.pocket .a) 24 1 ∧
      (((with_ .paused .stopped id).blocks.pocket .a).cycle.state = .paused ∧
        (with_ .paused .stopped id).blocks.doorClosed .a = true ∧
        (with_ .paused .stopped id).blocks.lintPresent .a = true ∧
        ((with_ .paused .stopped id).blocks.pocket .a).cycle.lockout = none ∧
        (with_ .paused .stopped id).blocks.lockoutConditions .a = []) ∧
      ((with_ .idle .stopped id).blocks.pocket .a).cycle.state = .idle :=
  ⟨commitReady_with _ _ _, by decide +kernel, by decide⟩

theorem witness_AdvanceGoesToCooling :
    ((with_ .extending .run id).CommitReady (.pocket .a) 24 1 ∧
        ((with_ .extending .run id).blocks.pocket .a).cycle.state = .extending ∧
        (with_ .extending .run id).blocks.OneCause .a) ∧
      ((with_ .starting .run id).blocks.pocket .a).cycle.state = .starting :=
  ⟨⟨commitReady_with _ _ _, by decide, Or.inr (by decide +kernel)⟩, by decide⟩

theorem witness_AbortIsAnsweredByState :
    ((with_ .starting .run id).CommitReady (.pocket .a) 24 1 ∧ (with_ .starting .run id).blocks.OneCause .a ∧
        ((with_ .starting .run id).blocks.pocket .a).cycle.state = .starting) ∧
      ((with_ .cooling .run id).blocks.pocket .a).cycle.state = .cooling ∧
      ((with_ .creaseGuard .run id).blocks.pocket .a).cycle.state = .creaseGuard ∧
      ((with_ .faulted .run id).blocks.pocket .a).cycle.state = .faulted :=
  ⟨⟨commitReady_with _ _ _, Or.inr (by decide +kernel), by decide⟩, by decide, by decide, by decide⟩

/-- Pocket A stands FAULTED for a cause. -/
def faultedFor (k : Lockout) : PocketUnit → PocketUnit := fun u => { u with cycle := { u.cycle with lockout := some k } }

theorem witness_ClearReturnsToIdle :
    (with_ .faulted .stopped (faultedFor .drum)).CommitReady (.pocket .a) 24 1 ∧
      (((with_ .faulted .stopped (faultedFor .drum)).blocks.pocket .a).cycle.state = .faulted ∧
        ((with_ .faulted .stopped (faultedFor .drum)).blocks.pocket .a).cycle.lockout = some .drum ∧
        ((with_ .faulted .stopped (faultedFor .drum)).blocks.pocket .a).drum.confirmed = false) ∧
      ((with_ .faulted .stopped (faultedFor .stale)).blocks.pocket .a).cycle.lockout = some .stale ∧
      ((with_ .done .stopped id).blocks.pocket .a).cycle.state = .done :=
  ⟨commitReady_with _ _ _, by decide, by decide, by decide⟩

theorem witness_HeldAndIllegalActionsChangeNothing :
    (with_ .held .stopped id).CommitReady (.pocket .a) 24 1 ∧
      ((with_ .held .stopped id).blocks.pocket .a).cycle.state = .held ∧ 6 < (7 : Byte).toNat :=
  ⟨commitReady_with _ _ _, by decide, by decide⟩

/-- NONE is answered NONE in HELD, without TAKE (R8, R21). -/
theorem test_none_is_answered_none :
    after (exec (.storeFrame (base.demandAddress 0) [1, 0] .clean) (with_ .held .stopped id))
        (fun t => (t.path.resultA.action, t.path.resultA.seq, t.blocks.pocketA.cycle.state, t.blocks.alerts.pending)) =
      some (.none, 1, .held, base.blocks.alerts.pending) := by decide +kernel

theorem witness_RaisedCauseIsLogged : base.blocks.alerts.faults.length ≤ 16 := by decide

theorem commitReady_common : base.CommitReady .common 8 1 := ⟨rfl, rfl, rfl, ⟨rfl, rfl⟩, by decide⟩

theorem witness_AcknowledgementRemovesCauses :
    base.CommitReady .common 8 1 ∧ base.blocks.alerts.faults.length ≤ 16 := ⟨commitReady_common, by decide⟩

theorem witness_FaultListIsCleared : base.CommitReady .common 8 1 ∧ 1 < (2 : Byte).toNat := ⟨commitReady_common, by decide⟩

/-! ## Witnesses: the timed events of a pocket -/

/-- Pocket A with its counters at their ends. -/
def expired : PocketUnit → PocketUnit := fun u =>
  { u with cycle := { u.cycle with elapsed := 3600, cool := 300, creaseTimer := 300, creaseElapsed := 7199, freshness := 1 } }

theorem witness_DryingEndsInCooling :
    ((with_ .drying .run expired).phase = .running ∧ (with_ .drying .run expired).blocks.OneCause .a ∧
        ((with_ .drying .run expired).blocks.pocket .a).tuning.timeLimit * 60 ≤
          ((with_ .drying .run expired).blocks.pocket .a).cycle.elapsed ∧
        ((with_ .drying .run expired).blocks.pocket .a).cycle.state = .drying) ∧
      ((with_ .extending .run expired).blocks.pocket .a).cycle.state = .extending ∧
      ((with_ .extending .run expired).blocks.pocket .a).cycle.extension = 0 :=
  ⟨⟨rfl, Or.inr (by decide +kernel), by decide, by decide⟩, by decide, by decide⟩

theorem witness_CoolingEndsByTheTable :
    ((with_ .cooling .run expired).phase = .running ∧
        ((with_ .cooling .run expired).blocks.pocket .a).cycle.state = .cooling ∧
        ((with_ .cooling .run expired).blocks.pocket .a).tuning.coolTime * 60 ≤
          ((with_ .cooling .run expired).blocks.pocket .a).cycle.cool ∧
        ((with_ .cooling .run expired).blocks.pocket .a).exhaust.fault = none) ∧
      (8 ≤ (1015 : BitVec 10).toNat ∧ (1015 : BitVec 10).toNat ≤ 1015 ∧
        translate Config.factoryRow 1015 < (with_ .cooling .run expired).blocks.heatLimit) ∧
      ((with_ .cooling .run (faultedFor .stale)).blocks.pocket .a).cycle.lockout.isSome ∧
      (((with_ .cooling .run expired).blocks.pocket .a).cycle.lockout = none ∧
        ((with_ .cooling .run expired).blocks.pocket .a).tuning.crease = 1 ∧
        (with_ .cooling .run expired).blocks.lockoutConditions .a = []) := by decide +kernel

theorem witness_CreaseGuardBurstsAndEnds :
    ((with_ .creaseGuard .stopped expired).phase = .running ∧
        ((with_ .creaseGuard .stopped expired).blocks.pocket .a).cycle.state = .creaseGuard ∧
        300 ≤ ((with_ .creaseGuard .stopped expired).blocks.pocket .a).cycle.creaseTimer ∧
        ((with_ .creaseGuard .stopped expired).blocks.pocket .a).cycle.creaseElapsed < 7200) ∧
      7200 ≤ ((with_ .creaseGuard .stopped fun u =>
        { u with cycle := { u.cycle with creaseElapsed := 7200 } }).blocks.pocket .a).cycle.creaseElapsed := by decide

theorem witness_StalePocketLocksOut :
    ((with_ .drying .run expired).phase = .running ∧
        ((with_ .drying .run expired).blocks.pocket .a).cycle.freshness = 1 ∧
        ((with_ .drying .run expired).blocks.pocket .a).cycle.lockout = none ∧
        ((with_ .drying .run expired).blocks.pocket .a).cycle.state = .drying) ∧
      ((with_ .cooling .run expired).blocks.pocket .a).cycle.state = .cooling ∧
      ((with_ .paused .stopped expired).blocks.pocket .a).cycle.state = .paused ∧
      ((with_ .cooling .run (faultedFor .sensor)).blocks.pocket .a).cycle.lockout.isSome := by decide

/-! ## Witnesses: the drum drive -/

/-- Pocket A's drum with a reference `period` units ago and the rest as given, the clock at 3 s. -/
def turning (st : CycleState) (d : DrumState) (period : Nat) (f : Drum → Drum) : State :=
  ((with_ st d fun u => { u with drum := f { u.drum with reference := some (3000000 - 100 * period) } }).modBlocks
    fun b => { b with clock := 3000000 })

theorem witness_PulseSetsPeriodAndSpeed :
    ((turning .starting .spinup 15001 id).phase = .running ∧ (turning .starting .spinup 15001 id).PulseTime .a ∧
        (∃ i : Fin 12, carrier (turning .starting .spinup 15001 id).blocks.working (.tach .a) = some i.val) ∧
        ((turning .starting .spinup 15001 id).blocks.pocket .a).drum.state = .spinup ∧
        speedOf 15001 < ((turning .starting .spinup 15001 id).blocks.pocket .a).tuning.speedLow) ∧
      carrier (List.replicate 128 0) (.tach .a) = none ∧ ¬base.PulseTime .a :=
  ⟨⟨rfl, ⟨by decide, fun ref h => by cases h; decide⟩, by decide +kernel, rfl, by decide +kernel⟩, by decide +kernel,
    fun h => absurd h.1 (by decide)⟩

theorem witness_JudgedPulsesReachRunOrTangle :
    ((turning .starting .spinup 15000 id).phase = .running ∧
        (∃ i : Fin 12, carrier (turning .starting .spinup 15000 id).blocks.working (.tach .a) = some i.val) ∧
        (200 ≤ (turning .starting .spinup 15000 id).blocks.clock ∧
          1500000 + 100 ≤ (turning .starting .spinup 15000 id).blocks.clock) ∧
        ((turning .starting .spinup 15000 id).blocks.pocket .a).drum.state = .spinup ∧
        ((turning .starting .spinup 15000 id).blocks.pocket .a).drum.reference = some 1500000 ∧
        ((turning .starting .spinup 15000 id).blocks.pocket .a).tuning.speedLow ≤ speedOf 15000 ∧
        (turning .starting .spinup 15000 id).blocks.lockoutConditions .a = []) ∧
      (((turning .drying .run 16000 fun d => { d with drag := 2, tangles := 3 }).blocks.pocket .a).drum.state = .run ∧
        ((turning .drying .run 16000 fun d => { d with drag := 2, tangles := 3 }).blocks.pocket .a).drum.reference =
          some 1400000 ∧
        speedOf 16000 < ((turning .drying .run 16000 id).blocks.pocket .a).tuning.speedLow ∧
        2 ≤ ((turning .drying .run 16000 fun d => { d with drag := 2, tangles := 3 }).blocks.pocket .a).drum.drag ∧
        3 ≤ ((turning .drying .run 16000 fun d => { d with drag := 2, tangles := 3 }).blocks.pocket .a).drum.tangles) ∧
      ((turning .drying .run 16000 fun d => { d with drag := 1 }).blocks.pocket .a).drum.drag < 2 ∧
      ((turning .drying .run 16000 id).blocks.pocket .a).cycle.lockout = none ∧
      (turning .drying .run 16000 id).blocks.OneCause .a := by
  refine ⟨?_, ?_, ?_, ?_, Or.inr ?_⟩ <;> decide +kernel

/-- A reverse run with REV_RUN 0 ends in the event that begins it (R72). -/
theorem test_run_of_length_zero_ends_at_once :
    after (exec (.tachPulse .a)
        ((turning .drying .spinup 10000 fun d => { d with request := .run, dir := .rev }).modBlocks fun b =>
          b.modPocket .a fun u => { u with tuning := { u.tuning with revRun := 0 } }))
      (fun t => (t.blocks.pocketA.drum.state, t.blocks.pocketA.drum.nextDir)) = some (.coast, .fwd) := by decide +kernel

theorem witness_SilenceConfirmsTheStop :
    ((with_ .starting .stopped fun u => { u with drum := { u.drum with silence := 2999 } }).phase = .running ∧
        ((with_ .starting .stopped fun u =>
          { u with drum := { u.drum with silence := 2999 } }).blocks.pocket .a).drum.silence = 2999) ∧
      ((with_ .starting .spinup id).blocks.pocket .a).drum.state = .spinup ∧
      (((with_ .idle .coast fun u => { u with drum := { u.drum with coastTimer := 3999 } }).blocks.pocket
          .a).drum.state = .coast ∧
        ((with_ .idle .coast fun u => { u with drum := { u.drum with coastTimer := 3999 } }).blocks.pocket
          .a).drum.coastTimer < 4 * 1000) ∧
      (((with_ .idle .coast fun u => { u with drum := { u.drum with coastTimer := 4000 } }).blocks.pocket
          .a).tuning.pause * 1000 ≤ 4000) := by decide

theorem witness_DrumFaultsAreAnswered :
    (((with_ .starting .spinup fun u => { u with drum := { u.drum with spinTimer := 9999 } }).blocks.pocket
        .a).drum.spinTimer = 9999) ∧
      (((with_ .drying .run fun u => { u with drum := { u.drum with silence := 2999 } }).blocks.pocket
        .a).drum.silence = 2999) ∧
      ((with_ .idle .coast fun u => { u with drum := { u.drum with coastTimer := 14999 } }).blocks.pocket
        .a).drum.coastTimer = 14999 ∧
      ((with_ .idle .coast id).blocks.pocket .a).drum.confirmed = false ∧ base.phase = .running := by decide

theorem witness_RunsAndCoastsEnd :
    (((with_ .drying .run fun u => { u with drum := { u.drum with request := .run, runTimer := 90000 } }).blocks.pocket
        .a).tuning.fwdRun * 1000 ≤ 90000 ∧
      ((with_ .drying .run id).blocks.pocket .a).drum.state = .run ∧
      ((with_ .drying .run fun u => { u with tuning := { u.tuning with revRun := 0 } }).blocks.pocket
        .a).tuning.revRun = 0) ∧
      (((with_ .drying .coast fun u =>
          { u with drum := { u.drum with confirmed := true, coastTimer := 4000 } }).blocks.pocket .a).drum.confirmed =
            true ∧
        ((with_ .drying .coast id).blocks.pocket .a).tuning.pause * 1000 ≤ 4000) := by decide

/-! ## Witnesses: temperatures, stages, supply -/

theorem witness_GoodSampleEntersTheRing :
    (base.phase = .running ∧ 8 ≤ (8 : BitVec 10).toNat ∧ (8 : BitVec 10).toNat ≤ 1015 ∧
        (base.blocks.channel .inlet).fault = none) ∧
      ((base.blocks.channel (.exhaust .a)).fault = none ∧ filterRing [191, 191, 191, 191] < base.blocks.heatLimit ∧
        (base.blocks.pocket .a).cycle.state ≠ .cooling) := by decide +kernel

theorem witness_OverheatIsRaisedAndLocksOut :
    ((at_ .drying).phase = .running ∧ ((at_ .drying).blocks.pocket .a).exhaust.fault = none ∧
        (at_ .drying).blocks.overheat .a = false ∧
        (at_ .drying).blocks.heatLimit ≤ translate (at_ .drying).blocks.working 54 ∧
        ((at_ .drying).blocks.pocket .a).cycle.lockout = none ∧
        ((at_ .drying).blocks.pocket .a).cycle.state = .drying ∧
        (at_ .drying).blocks.coolTarget .a < translate (at_ .drying).blocks.working 54) ∧
      ((at_ .cooling).blocks.pocket .a).cycle.state = .cooling ∧ ((at_ .paused).blocks.pocket .a).cycle.state = .paused ∧
      ((at_ .creaseGuard).blocks.pocket .a).cycle.state = .creaseGuard ∧
      ((with_ .drying .run (faultedFor .stale)).blocks.pocket .a).cycle.lockout.isSome ∧
      ((at_ .idle).blocks.pocket .a).cycle.state = .idle := by decide +kernel

/-- Pocket A's exhaust channel with its streaks. -/
def channel (fault : Option Side) (bad good : Nat) : State :=
  with_ (if fault.isSome then .idle else .drying) .run fun u =>
    { u with exhaust := { u.exhaust with fault := fault, bad := bad, good := good } }

theorem witness_BadSamplesFaultAndGoodOnesRecover :
    (((channel none 1 0).blocks.channel (.exhaust .a)).fault = none ∧
        ((channel none 1 0).blocks.channel (.exhaust .a)).bad < 2 ∧ ¬8 ≤ (7 : BitVec 10).toNat ∧
        ¬(1016 : BitVec 10).toNat ≤ 1015) ∧
      (2 ≤ ((channel none 2 0).blocks.channel (.exhaust .a)).bad ∧
        ((channel none 2 0).blocks.pocket .a).cycle.state = .drying ∧
        ((channel none 2 0).blocks.pocket .a).cycle.lockout = none) ∧
      (((at_ .cooling).blocks.pocket .a).cycle.lockout = none ∧ ((at_ .cooling).blocks.pocket .a).cycle.state = .cooling ∧
        ((at_ .paused).blocks.pocket .a).cycle.state = .paused ∧
        ((with_ .drying .run (faultedFor .stale)).blocks.pocket .a).cycle.lockout.isSome) ∧
      (((channel (some .low) 3 8).blocks.channel (.exhaust .a)).fault.isSome ∧
        ((channel (some .low) 3 8).blocks.channel (.exhaust .a)).good < 9) ∧
      (9 ≤ ((channel (some .low) 0 9).blocks.channel (.exhaust .a)).good ∧
        ((channel (some .low) 0 9).blocks.channel (.exhaust .a)).ring = [] ∧
        ((channel (some .low) 0 9).blocks.pocket .a).cycle.state = .idle) := by decide +kernel

/-- The recovery of an exhaust ends a cooling at or below its cool target (R35, R79). -/
theorem test_recovery_ends_cooling :
    after (exec (.temperatureSample (.exhaust .a) 900) (with_ .cooling .run fun u =>
        { u with exhaust := { u.exhaust with fault := some .high, good := 9 } }))
      (fun t => (t.blocks.pocketA.exhaust.fault, t.blocks.pocketA.cycle.state)) = some (none, .creaseGuard) := by
  decide +kernel

theorem witness_WantsFollowTheBands :
    (base.blocks.pocket .a).exhaust.filtered = none ∧ base.phase = .running ∧ 8 ≤ (700 : BitVec 10).toNat ∧ (700 : BitVec 10).toNat ≤ 1015 ∧
      (base.blocks.pocket .a).exhaust.fault = none := by decide

/-- Stage A2 queued with a not-before time about to end, stage A1 at the end of its dwell, an allowance and the pacing
timer at their last ms. -/
def timed : State :=
  (with_ .drying .run fun u =>
    { u with
      stage1 := { state := .dwell, want := true, dwell := 4999, ended := false }
      stage2 := { state := .queued, want := true, dwell := 0, ended := false } }).modBlocks
    fun b => { b with load := { b.load with
      queue := [{ stage := .a2, notBefore := some 1 }], allowanceA := some 1, pacing := 249 } }

theorem timed_listsAgree : timed.blocks.ListsAgree := ⟨by decide, by decide, fun st => by cases st <;> decide⟩

theorem witness_LoadTimersEnd :
    timed.phase = .running ∧ timed.blocks.ListsAgree ∧ (timed.blocks.stage .a1).state = .dwell ∧
      (timed.blocks.stage .a1).dwell = 4999 ∧ timed.blocks.load.allowance .a = some 1 ∧
      timed.blocks.load.pacing = 249 ∧ { stage := .a2, notBefore := some 1 } ∈ timed.blocks.load.queue :=
  ⟨rfl, timed_listsAgree, by decide, by decide, by decide, by decide, by decide⟩

/-- A pocket in DRYING with its drum in RUN and its cutout closed has permission, and with its cutout UNSETTLED has not
(R82, R140). -/
theorem test_permission_needs_the_cutout_closed :
    (at_ .drying).blocks.permissionHolds .a = true ∧
      ((at_ .drying).modBlocks fun b => { b with contacts := .reset }).blocks.permissionHolds .a = false := by
  decide +kernel

theorem witness_StagesFollowWantAndPermission :
    ((timed.blocks.stage .b1).state = .off ∧ (timed.blocks.stage .b1).want = false) ∧
      ((timed.blocks.stage .a2).state = .queued ∧ (timed.blocks.pocket .a).permission = false ∧
        (timed.blocks.stage .a2).ended = false ∧ ({ timed.blocks.stage .a2 with ended := true } : StageUnit).ended = true) ∧
      ((timed.blocks.stage .a1).state = .dwell ∧ timed.blocks.ListsAgree) ∧
      ((with_ .drying .run fun u =>
        { u with stage1 := { u.stage1 with want := true }, permission := true }).blocks.stage .a1).want = true :=
  ⟨⟨by decide, by decide⟩, ⟨by decide, by decide, by decide, rfl⟩, ⟨by decide, timed_listsAgree⟩, by decide⟩

theorem witness_QueueAndGrantsFollowTheBudget :
    timed.blocks.load.queue = { stage := .a2, notBefore := some 1 } :: [] ∧ granted.load.grants ≠ [] ∧
      (base.blocks.load.mains.state = .normal ∧ base.blocks.held = false ∧ base.blocks.optionState = .valid) ∧
      (held .idle).blocks.held = true := by decide +kernel

/-- The budgets printed under R99: 16 lu less 4 lu for each of none, one and two allowances, and 6 lu likewise. -/
theorem test_budgets_of_the_manual :
    [(16, none, none), (16, some 1, none), (16, some 1, some 2), (6, none, some 1), (6, some 1, some 2)].map
      (fun x : Nat × Option Nat × Option Nat =>
        (base.modBlocks fun b => { b with load := { b.load with
          supplyLimit := x.1, allowanceA := x.2.1, allowanceB := x.2.2 } }).blocks.effectiveBudget) = [16, 12, 8, 2, 0] := by
  decide +kernel

/-- The mains monitor as given, 10 ms after its last crossing. -/
def mains (st : MainsState) (open_ : Bool) (sag restore : Nat) : State :=
  base.modBlocks fun b =>
    ({ b with clock := 14000 } : Blocks).modMains fun m =>
      { m with state := st, halfOpen := open_, sagStreak := sag, restoreStreak := restore, crossedAt := 10000,
               lossTimer := 39 }

theorem witness_CrossingsAndLossJudgeTheMains :
    ((mains .normal true 3 0).phase = .running ∧ (mains .normal true 3 0).blocks.load.mains.halfOpen = true ∧
        (mains .normal true 3 0).blocks.load.mains.crossedAt + 4000 ≤ (mains .normal true 3 0).blocks.clock ∧
        (169 : Byte).toNat < (mains .normal true 3 0).blocks.sagLevel ∧
        3 ≤ (mains .normal true 3 0).blocks.load.mains.sagStreak) ∧
      (mains .normal false 0 0).blocks.load.mains.halfOpen = false ∧
      (mains .lost false 0 0).blocks.load.mains.state = .lost ∧
      ((mains .sagged true 0 15).blocks.load.mains.state = .sagged ∧
        (mains .sagged true 0 15).blocks.restoreLevel ≤ (190 : Byte).toNat ∧
        15 ≤ (mains .sagged true 0 15).blocks.load.mains.restoreStreak) ∧
      ¬((mains .normal true 0 0).blocks.load.mains.crossedAt + 4000 ≤
        ((mains .normal true 0 0).modBlocks fun b => { b with clock := 13999 }).blocks.clock) ∧
      (mains .normal true 0 0).blocks.load.mains.lossTimer = 39 := by decide +kernel

/-! ## Witnesses: dryness, contacts -/

/-- Pocket A's gate and open window. -/
def window (open_ : Bool) (gated : Nat) : State :=
  with_ .drying .run fun u => { u with dryness := { u.dryness with gateOpen := open_, gated := gated } }

theorem witness_ElectrodeSamplesFillWindows :
    ((window false 0).phase = .running ∧ ((window false 0).blocks.pocket .a).dryness.gateOpen = false) ∧
      (((window true 254).blocks.pocket .a).dryness.gateOpen = true ∧
        ((window true 254).blocks.pocket .a).dryness.gated < 255) ∧
      255 ≤ ((window true 255).blocks.pocket .a).dryness.gated ∧
      (((window true 255).blocks.pocket .a).cycle.state = .drying ∧
        ((window true 255).blocks.pocket .a).tuning.mode = 0 ∧ (window true 255).blocks.causeAtEntry .a = none) ∧
      ((with_ .cooling .run id).blocks.pocket .a).cycle.state ≠ .drying := by decide +kernel

/-- IN3 carries DOOR_A and IN5 LINT_A... in the row of the machine; a high pin is inactive. -/
theorem witness_DoorsAndFiltersPauseThePocket :
    (base.blocks.clock < 20100 ∧ ∀ s : State, 20100 ≤ (later s).blocks.clock ∧ (later s).phase = s.phase) ∧
      (base.phase = .running ∧ (base.blocks.input 3).level = .active ∧
        actingFunction base.blocks.working 3 = .door .a ∧ logicalLevel base.blocks.working 3 true = false ∧
        logicalLevel base.blocks.working 3 false = true) ∧
      (∃ i : Fin 12, actingFunction base.blocks.working i.val = .lint .a) ∧
      ((at_ .drying).blocks.pocket .a).cycle.state = .drying ∧ (at_ .drying).blocks.OneCause .a ∧
      ((at_ .done).blocks.pocket .a).cycle.state = .done ∧ ((at_ .idle).blocks.pocket .a).cycle.state = .idle :=
  ⟨⟨by decide, fun _ => ⟨Nat.le_refl _, rfl⟩⟩, by decide +kernel, by decide +kernel, by decide,
    Or.inr (by decide +kernel), by decide, by decide⟩

theorem witness_CutoutBeltAndChordChangesAct :
    20100 ≤ (later base).blocks.clock ∧ (base.phase = .running ∧ (∃ i : Fin 12, actingFunction base.blocks.working i.val = .hilimit .a ∧
        (base.blocks.input i.val).level = .active ∧ logicalLevel base.blocks.working i.val true = false)) ∧
      (∃ i : Fin 12, actingFunction base.blocks.working i.val = .belt .a ∧ (base.blocks.input i.val).level = .active) ∧
      (actingFunction base.blocks.working 10 = .chord ∧ (base.blocks.input 10).level = .inactive) ∧
      (((at_ .drying).blocks.pocket .a).cycle.lockout = none ∧
        ((at_ .drying).blocks.pocket .a).drum.motorOn = true) ∧
      (((at_ .cooling).blocks.pocket .a).cycle.state = .cooling ∧ ((at_ .paused).blocks.pocket .a).cycle.state = .paused ∧
        ((at_ .creaseGuard).blocks.pocket .a).cycle.state = .creaseGuard ∧
        ((with_ .drying .run (faultedFor .stale)).blocks.pocket .a).cycle.lockout.isSome) ∧
      (State.reset.blocks.input 2).level = .unsettled := by decide +kernel

/-- The chord qualifying, its timer as given, both drums STOPPED. -/
def chord (ms : Nat) : State :=
  base.modBlocks fun b => { b with contacts := { b.contacts with chord := .qualifying, chordTimer := ms } }

theorem witness_ChordStopsBothPockets :
    (chord 50).phase = .running ∧ (chord 50).blocks.contacts.chord = .qualifying ∧
      (chord 50).blocks.pocketA.drum.state = .stopped ∧ (chord 50).blocks.pocketB.drum.state = .stopped ∧
      50 ≤ (chord 50).blocks.contacts.chordTimer ∧ (chord 49).blocks.contacts.chordTimer < 50 := by decide

/-- The chord is judged as the last drum enters STOPPED, and stops the pocket before a spin-up (R146; log entry 14). -/
theorem test_coast_end_judges_the_chord :
    after (exec (.coastEnd .a) ((chord 60).modBlocks fun b =>
        (b.modCycle .a fun c => { c with state := .drying }).modDrum .a fun d =>
          { d with state := .coast, confirmed := true, coastTimer := 4000, request := .run }))
      (fun t => (t.blocks.pocketA.cycle.state, t.blocks.pocketA.drum.state, t.blocks.contacts.chord)) =
        some (.idle, .stopped, .spent) := by decide +kernel

/-! ## Witnesses: the service line -/

theorem witness_SyncErrorsAndGapsAbandon :
    ((line .ready).phase = .running ∧ (line .ready).service.receiver = .ready) ∧
      ((line .receiving fun u => { u with lowFromReady := true }).service.lowFromReady = true) ∧
      ((line .executing).service.receiver = .executing ∧ (line .executing).service.lowFromReady = false) ∧
      ((line .syncReply fun u => { u with replyTimer := 111 }).service.replyTimer = 111) ∧
      (line .answering fun u => { u with gapTimer := 1024 }).service.gapTimer = 1024 ∧
      (line .awaitSync).service.receiver = .awaitSync := by decide

theorem witness_ShortCommandsAnswerAtOnce :
    (tool base).Takes [1] ∧ (tool base).Takes (8 :: toLe 2 0x8001) ∧ (tool base).Takes [9] ∧ (tool base).Takes [10] ∧
      9 < (10 : Byte).toNat ∧ (0 : Byte).toNat < 1 :=
  ⟨⟨rfl, rfl⟩, ⟨rfl, rfl⟩, ⟨rfl, rfl⟩, ⟨rfl, rfl⟩, by decide, by decide⟩

theorem witness_PeekAndPokeGoToTheArbiter :
    (tool (accessing .poke .inFlight)).path.access = some (access .poke .inFlight) ∧
      (tool (accessing .poke .inFlight)).Takes (2 :: addressBytes 0x1FF80 ++ [16]) ∧
      (access .poke .inFlight).phase = .inFlight ∧ (tool base).path.access = none ∧ (tool base).Takes (2 :: addressBytes 0x1FF80 ++ [16]) ∧
      (1 ≤ (16 : Byte).toNat ∧ (16 : Byte).toNat ≤ 16) ∧ ¬(1 ≤ (17 : Byte).toNat ∧ (17 : Byte).toNat ≤ 16) ∧
      (tool (held .idle)).Takes (3 :: addressBytes 0x10 ++ 1 :: [7]) ∧ [(7 : Byte)].length = (1 : Byte).toNat ∧
      (tool (held .idle)).blocks.held = true ∧ (tool base).blocks.held = false :=
  ⟨rfl, ⟨rfl, rfl⟩, rfl, rfl, ⟨rfl, rfl⟩, by decide, by decide, ⟨rfl, rfl⟩, by decide, rfl, rfl⟩

/-- With select asserted as the PEEK is executed the access waits; with select released it starts (R13). -/
theorem test_peek_waits_for_select :
    after (exec (.peek ⟨0x10, true⟩ 1) (tool base)) (fun t => t.path.access.map Access.phase) = some (some (.waiting 0)) ∧
      after (exec (.peek ⟨0x10, false⟩ 1) (tool base)) (fun t => t.path.access.map Access.phase) = some (some .inFlight) := by
  decide +kernel

theorem witness_HoldStopsBothPockets :
    (tool base).Takes [4] ∧ (tool base).blocks.held = false ∧ (tool base).service.permit = false ∧
      (tool base).blocks.optionState = .valid ∧
      ((tool base).modService fun u => { u with permit := true }).service.permit = true ∧ (tool base).blocks.ListsAgree ∧
      ((tool base).modBlocks fun b => { b with optionState := .optionFault }).blocks.optionState = .optionFault ∧
      (tool (held .idle)).blocks.held = true :=
  ⟨⟨rfl, rfl⟩, rfl, rfl, rfl, rfl, base_listsAgree, rfl, rfl⟩

/-- Hold leaves every stage in DWELL, also one that was OFF (R114). -/
theorem test_hold_puts_every_stage_in_dwell :
    after (exec .hold ((tool base).modService fun u => { u with permit := true }))
      (fun t => [Stage.a1, .a2, .b1, .b2].map fun st => (t.blocks.stage st).state) = some (List.replicate 4 .dwell) := by
  decide +kernel

/-- The end of a dwell and then the loss of permission in one instant leave the stage OFF (R91). -/
theorem test_dwell_end_then_loss :
    (match exec (.dwellEnd .a1) timed with
      | .next t => after (exec (.debouncedChange 3 true) (later t)) fun t => (t.blocks.stage .a1).state
      | _ => none) = some .off := by decide +kernel

theorem witness_ReleaseLandsByTheTable :
    (tool (held .creaseGuard)).Takes [5] ∧ (tool (held .creaseGuard)).blocks.held = true ∧
      (∀ p, ((tool (held .creaseGuard)).blocks.pocket p).cycle.state = .held ∧
        ((tool (held .creaseGuard)).blocks.pocket p).drum.request = .stop ∧
        ((tool (held .creaseGuard)).blocks.pocket p).drum.motorOn = false ∧
        (tool (held .creaseGuard)).blocks.OneCause p) ∧
      (tool base).blocks.held = false :=
  ⟨⟨rfl, rfl⟩, rfl, fun p => by cases p <;> exact ⟨rfl, rfl, by decide, Or.inr (by decide +kernel)⟩, rfl⟩

theorem witness_OptionRowIsReadAndWritten :
    ((tool base).nvWrite = none ∧ (tool base).Takes [6, 112, 16] ∧ (112 : Byte).toNat + (16 : Byte).toNat ≤ 128) ∧
      ((tool base).Takes [6, 113, 16] ∧ ¬(113 : Byte).toNat + (16 : Byte).toNat ≤ 128) ∧
      ((tool (held .idle)).Takes (7 :: 127 :: 1 :: [0x3C]) ∧ (tool (held .idle)).blocks.held = true ∧
        [(0x3C : Byte)].length = (1 : Byte).toNat) ∧
      ¬(1 ≤ (0 : Byte).toNat) ∧
      127 + [(0x3C : Byte)].length ≤ base.storedRow.length ∧
      (({ tool base with nvWrite := some ⟨127, [0x3C], false⟩ } : State).Takes [6, 112, 16] ∧
        ({ tool base with nvWrite := some ⟨127, [0x3C], false⟩ } : State).nvWrite.isSome ∧
        ({ tool base with nvWrite := some ⟨127, [0x3C], false⟩ } : State).Takes (7 :: 127 :: 1 :: [0x3C])) :=
  ⟨⟨rfl, ⟨rfl, rfl⟩, by decide⟩, ⟨⟨rfl, rfl⟩, by decide⟩, ⟨⟨rfl, rfl⟩, rfl, by decide⟩, by decide, by decide +kernel,
    ⟨rfl, rfl⟩, rfl, ⟨rfl, rfl⟩⟩

/-- A command that waited for an abandoned nonvolatile write is carried out at its end (R162, R167). -/
theorem test_option_command_waits_for_the_write :
    after (exec .optWriteComplete
        { base with
          nvWrite := some ⟨5, [0], false⟩, service := { base.service with heldOption := some (.read 200 1) } })
      (fun t => (t.service.answer, t.service.lastResult, t.service.heldOption.isSome)) =
        some (some ([1, 0xFF].flatMap bitsOf), .refused, false) := by decide +kernel

theorem witness_AnswerSlotsSendTheAnswer :
    ((line .executing).phase = .running ∧ (line .executing).service.slotTimer = 32 ∧
        (line .executing).service.answer = none) ∧
      ((line .executing fun u => { u with answer := some [] }).service.answer.isSome) ∧
      ((line .answering fun u => { u with answer := some [true] }).service.answer = some (true :: [])) ∧
      (line .answering fun u => { u with answer := some [true, false] }).service.answer = some (true :: [false]) ∧
      ((line .answering fun u => { u with answer := some [], slotTimer := 31 }).service.answer = some [] ∧
        (line .answering fun u => { u with slotTimer := 31 }).pending = []) ∧
      ((line .awaitSync).service.receiver = .awaitSync ∧ (line .awaitSync).service.slotTimer = 32) ∧
      (line .receiving fun u => { u with slotTimer := 11 }).service.slotTimer = 11 ∧
      ((line .receiving fun u => { u with slotTimer := 11 }).service.lineLow = false ∧
        (line .receiving fun u => { u with slotTimer := 11 }).phase = .running) ∧
      receivedCommand [1] = some .status := by
  decide

/-- A GAP_TIMEOUT taken before the slot of its own cycle leaves the edge to AWAIT_SYNC, where it restarts slot and gap timer
(R159, R162; log entry 49). -/
theorem test_slot_after_the_gap_of_its_cycle :
    after (exec .gapTimeout (line .executing fun u => { u with gapTimer := 1024 }))
        (fun t => (t.service.receiver, t.service.slotTimer)) = some (.awaitSync, 32) ∧
      after (exec .partToToolSlot (line .awaitSync fun u => { u with gapTimer := 1025 }))
        (fun t => (t.service.receiver, t.service.slotTimer, t.service.gapTimer, t.service.sentBit)) =
          some (.awaitSync, 0, 0, none) := by decide +kernel

/-- The bytes of the commands (R161, R184, R185): an address most significant byte first, the end at an n out of range, no
command from a prefix. -/
theorem test_received_commands :
    receivedCommand [2, 0x01, 0xFF, 0x80, 16] = some (.peek ⟨0x01FF80, false⟩ 16) ∧
      receivedCommand [2, 0x01, 0xFF, 0x80] = none ∧ receivedCommand [7, 5, 17] = some (.optWrite 5 17 []) ∧
      receivedCommand [7, 5, 2, 9] = none ∧ receivedCommand [8, 0x34, 0x12] = some (.forceAlert 0x1234) ∧
      receivedCommand [0] = some (.unknownCommand 0) ∧ receivedCommand [10, 1] = none := by decide

/-- A falling edge in READY starts a code byte's slot with both timers at 0; a slot timer counts to 32 (R159, R162). -/
theorem test_falling_edge_starts_a_slot :
    after (step ({ line .ready with pins := { base.pins with toolLow := true } } : State))
        (fun t => (t.service.receiver, t.service.slotTimer, t.service.gapTimer)) = some (.receiving, 0, 0) ∧
      after (step (line .receiving fun u => { u with slotTimer := 31, gapTimer := 900 }))
        (fun t => (t.service.slotTimer, t.service.gapTimer)) = some (32, 901) := by decide +kernel

/-- A second low of the first slot of a command code is judged as begun in READY: the mark stands past the slot's end and at
the release, and the line error leaves the last result (R159). -/
theorem test_second_low_of_readys_slot :
    let low := fun (slot : Nat) (tool : Bool) (s : State) =>
      ({ s.modService fun u => { u with slotTimer := slot, lowFromReady := true, lastResult := .refused } with
        pins := { s.pins with toolLow := tool } } : State)
    after (step (low 20 true (line .receiving))) (fun t => (t.service.slotTimer, t.service.lowFromReady)) = some (21, true) ∧
      after (step (low 32 false (line .receiving fun u => { u with lineLow := true, lowFor := 40 })))
        (fun t => (t.pending, t.service.lowFromReady)) = some ([.lineError], true) ∧
      after (exec .lineError (low 32 false (line .receiving)))
        (fun t => (t.service.receiver, t.service.lastResult)) = some (.awaitSync, .refused) := by decide +kernel

/-- A RESET_PART is done at the end of its answer's last slot: the reset joins the queue there, and not before (R161,
R168). -/
theorem test_reset_follows_the_answer :
    after (step (line .answering fun u => { u with command := some [9], answer := some [], slotTimer := 31 }))
        (fun t => (t.pending, t.service.receiver)) = some ([.serviceReset], .ready) ∧
      after (step (line .answering fun u => { u with command := some [9], answer := some [], slotTimer := 30 }))
        (fun t => (t.pending, t.service.receiver)) = some ([], .answering) := by decide +kernel

/-- The common record ready for a take, its ALERT_ENABLE and SUPPLY_LIMIT touched. -/
def commonStaged : State :=
  base.modPath fun u => { u with stagingCommon :=
    { u.stagingCommon with
      bytes := [0, 0x01, 0x80, 0, 0, 31, 0, 0], touched := [false, true, true, false, false, true, false, false] } }

theorem witness_CommonTakeComesIntoEffect :
    commonStaged.phase = .running ∧ commonStaged.captures = true ∧ commonStaged.path.access = none ∧
      commonStaged.path.stagingCommon.bytes.length = 8 ∧ commonStaged.path.stagingCommon.touched.length = 8 ∧
      commonStaged.path.stagingCommon.lastSeq ≠ 1 := by decide +kernel

/-- ALERT_ENABLE's low byte is its first (R176), and a SUPPLY_LIMIT above OPT_SUPPLY_MAX is clamped (R97). -/
theorem test_common_take :
    after (exec (.storeFrame (base.demandAddress 0x80) [1] .clean) commonStaged)
        (fun t => (t.blocks.alerts.enabled, t.blocks.load.supplyLimit, t.path.resultCommon.clamped)) =
      some (0x8001, base.blocks.load.supplyLimit, 0x4) := by decide +kernel

end Sys2Proof.Tests
end

section
/-! SUPPORT. The stop chord (R49, R145 to R147): what a panel stop does to a pocket, and the event that ends in it. -/

namespace Sys2Proof.Machine

/-! ## A pocket changed -/

@[simp] theorem Blocks.modPocket_modPocket (b : Blocks) (p : Pocket) (f g : PocketUnit → PocketUnit) :
    (b.modPocket p f).modPocket p g = b.modPocket p fun u => g (f u) := by cases p <;> rfl

theorem Blocks.modPocket_congr {b : Blocks} {p : Pocket} {f g : PocketUnit → PocketUnit}
    (h : f (b.pocket p) = g (b.pocket p)) : b.modPocket p f = b.modPocket p g := by
  cases p with
  | a => exact congrArg (fun u => { b with pocketA := u }) h
  | b => exact congrArg (fun u => { b with pocketB := u }) h

theorem Blocks.modPocket_id (b : Blocks) (p : Pocket) : b.modPocket p (fun u => u) = b := by cases p <;> rfl

/-! ## The panel stop (R49, R56) -/

theorem Drum.stopRequest_eq (d : Drum) : d.stopRequest = d.askedToStop := by
  obtain ⟨st, _⟩ := d
  cases st <;> rfl

theorem Blocks.goFaulted_eq (b : Blocks) (p : Pocket) :
    b.goFaulted p = b.modPocket p fun u =>
      { u with
        cycle := { u.cycle with state := .faulted, startTarget := none, resume := none }
        drum := u.drum.askedToStop } := by
  simp [Blocks.goFaulted, Blocks.stopDrum, Blocks.modCycle, Blocks.modDrum, Drum.stopRequest_eq]

theorem Blocks.enterIdle_eq (b : Blocks) (p : Pocket) :
    b.enterIdle p = b.modPocket p fun u =>
      { u with
        cycle := { u.cycle with state := .idle, startTarget := none, resume := none }
        drum := u.drum.askedToStop } := by
  simp [Blocks.enterIdle, Blocks.stopDrum, Blocks.modCycle, Blocks.modDrum, Drum.stopRequest_eq]

/-- A panel stop changes its own pocket alone, by the pocket's state and lockout cause. -/
theorem Blocks.panelStopPocket_eq (b : Blocks) (p : Pocket) :
    b.panelStopPocket p = b.modPocket p PocketUnit.panelStopped := by
  unfold Blocks.panelStopPocket
  rw [b.goFaulted_eq, b.enterIdle_eq]
  cases hs : (b.pocket p).cycle.state
  case idle | done | faulted | held =>
    exact (b.modPocket_id p).symm.trans (Blocks.modPocket_congr (by simp [PocketUnit.panelStopped, hs]))
  all_goals
    dsimp only
    split <;> exact Blocks.modPocket_congr (by simp_all [PocketUnit.panelStopped])

theorem Blocks.panelStop_eq (b : Blocks) :
    b.panelStop =
      { b with
        contacts := { b.contacts with chord := .spent }
        pocketA := b.pocketA.panelStopped, pocketB := b.pocketB.panelStopped } := by
  simp only [Blocks.panelStop, Blocks.panelStopPocket_eq]
  rfl

/-! ## CHORD_QUALIFY (R146, R147) -/

/-- In QUALIFYING the event takes place exactly with the chord timer at or above the threshold in effect. -/
theorem execChordQualify_of_qualifying {s : State} (run : s.phase = .running)
    (qualifying : s.blocks.contacts.chord = .qualifying) :
    exec .chordQualify s =
      .next (if s.blocks.chordThreshold ≤ s.blocks.contacts.chordTimer then
        { s with blocks := s.blocks.panelStop.settle } else s) := by
  change execChordQualify s = _
  unfold execChordQualify
  rw [State.onBlocks_of_running s run]
  by_cases reached : s.blocks.chordThreshold ≤ s.blocks.contacts.chordTimer <;>
    simp [State.modBlocks, Blocks.when, qualifying, reached]

/-- Settles O52: the panel stop of each pocket, taken by its state, after the threshold of R146 has been reached. -/
theorem chordStopsBothPockets : Obligations.ChordStopsBothPockets := by
  intro s run qualifying
  have answer := execChordQualify_of_qualifying run qualifying
  refine ⟨fun reached => ?_, fun short => ?_⟩
  · rw [if_pos (show s.blocks.chordThreshold ≤ _ from reached)] at answer
    exact State.settlesAs_of_settle answer s.blocks.panelStop_eq s.blocks.panelStop_sameLists
  · rwa [if_neg (show ¬s.blocks.chordThreshold ≤ _ from Nat.not_le.mpr short)] at answer

end Sys2Proof.Machine
end

section
/-! SUPPORT. The commit of an action: the STORE frame of SEQ and ACTION, the take of the record it makes due, and the
answers of START and RESUME with their run request (R4 to R10, R21, R22, R24, R57). -/

namespace Sys2Proof.Machine

/-! ## The staging record of a commit (R4, R7) -/

theorem PathUnit.setStaging_staging (u : PathUnit) (r : RecordId) (st : Staging) :
    (u.setStaging r st).staging r = st := by
  obtain ⟨_ | _⟩ | _ := r <;> rfl

/-- A record of which ACTION alone is touched has no touched field. -/
theorem judgeField_of_action (c : Cycle) {st : Staging} (untouched : st.Untouched 24) (code : Byte) (j : Judged)
    (f : PocketField) : judgeField c (st.touch 1 code) j f = j := by
  have none : touchOf (st.touch 1 code).touched f.offset f.size = .untouched := by
    rw [Staging.touch, untouched.2]
    cases f <;> rfl
  simp [judgeField, none]

theorem judgeFields_of_action (u : PocketUnit) {st : Staging} (untouched : st.Untouched 24) (code : Byte) :
    judgeFields u (st.touch 1 code) = { tuning := u.tuning, clamped := 0, torn := 0, refused := 0, taken := [] } := by
  rw [judgeFields, List.foldl_fixed' fun f => judgeField_of_action u.cycle untouched code _ f]

/-- With no field taken, nothing is delivered. -/
theorem Blocks.deliver_nothing (b : Blocks) (p : Pocket) (clamped torn refused : BitVec 24) :
    b.deliver p
      { tuning := (b.pocket p).tuning, clamped := clamped, torn := torn, refused := refused, taken := [] } = b := by
  have same : b.modPocket p (fun u => { u with tuning := (b.pocket p).tuning }) = b := by cases p <;> rfl
  simp [Blocks.deliver, Blocks.judgeCoolingTake, same]

/-- The result of a take of ACTION alone. -/
def TakeResult.ofAction (seq : Byte) (a : ActionResult) : TakeResult :=
  { seq := seq, action := a, clamped := 0, torn := 0, refused := 0 }

/-- The blocks after a take whose action left them as given: freshness reloaded, TAKE raised if called for. -/
def Blocks.afterAnswer (b : Blocks) (p : Pocket) (seq : Byte) (a : ActionResult) : Blocks :=
  (b.reloadFreshness p).raiseTake (.ofAction seq a)

/-- The end of an event leaves the fields in effect. -/
theorem Blocks.settle_tuning (b : Blocks) (p : Pocket) : (b.settle.pocket p).tuning = (b.pocket p).tuning := by
  have same := congrArg (fun c : Blocks => (c.pocket p).tuning) b.settle_apartFromHeat
  cases p <;> exact same

theorem Blocks.reloadFreshness_tuning (b : Blocks) (p : Pocket) :
    ((b.reloadFreshness p).pocket p).tuning = (b.pocket p).tuning := by cases p <;> rfl

theorem Blocks.makePending_pocket (b : Blocks) (k : Cause) (p : Pocket) : (b.makePending k).pocket p = b.pocket p := by
  rw [b.makePending_alerts k]
  cases p <;> rfl

theorem Blocks.afterAnswer_tuning (b : Blocks) (p : Pocket) (seq : Byte) (a : ActionResult) :
    ((b.afterAnswer p seq a).pocket p).tuning = (b.pocket p).tuning := by
  unfold Blocks.afterAnswer Blocks.raiseTake
  split
  · rw [Blocks.raiseCause, Blocks.makePending_pocket, Blocks.reloadFreshness_tuning]
  · exact b.reloadFreshness_tuning p

/-- A take with ACTION alone touched answers the action, and does nothing else but what every take does. -/
theorem Blocks.takePocket_of_action (b : Blocks) (p : Pocket) {st : Staging} (untouched : st.Untouched 24)
    (seq code : Byte) :
    b.takePocket p (st.touch 1 code) seq =
      (.ofAction seq (b.answerCode p code.toNat).1,
        ((b.answerCode p code.toNat).2.afterAnswer p seq (b.answerCode p code.toNat).1).settle) := by
  obtain ⟨size, touched⟩ := untouched
  have isTouched : (st.touch 1 code).touched.getD 1 false = true := by rw [Staging.touch, touched]; rfl
  have staged : (st.touch 1 code).bytes.getD 1 0 = code := by simp [Staging.touch, size]
  rw [Blocks.takePocket, judgeFields_of_action _ ⟨size, touched⟩]
  simp only [Blocks.deliver_nothing, isTouched, staged, if_true]
  rfl

/-! ## The frame of a commit (R4 to R6) -/

theorem startAddress_demandAddress (s : State) (off : Nat) :
    startAddress (s.demandAddress off) = s.blocks.demandBase + BitVec.ofNat 17 off := by
  simp [startAddress, State.demandAddress]

theorem pageOffset_base_add (base : BitVec 17) {off : Nat} (h : off < 256) :
    pageOffset base (base + BitVec.ofNat 17 off) = some off := by
  have small : off % 131072 = off := Nat.mod_eq_of_lt (by omega)
  simp [pageOffset, small, h]

theorem demandByte_seq (p : Pocket) : demandByte (recordOffset (.pocket p)) = .seq (.pocket p) := by
  cases p <;> rfl

theorem demandByte_action (p : Pocket) : demandByte (recordOffset (.pocket p) + 1) = .field (.pocket p) 1 := by
  cases p <;> rfl

/-- While stores are captured, a byte stored at an offset of the demand page is examined for capture. -/
theorem State.storeByte_of_captures {s : State} (captures : s.captures = true) {addr : BitVec 17} {off : Nat}
    (place : pageOffset s.blocks.demandBase addr = some off) (v : Byte) :
    s.storeByte addr v = State.captureByte { s with ram := writeRam addr.toNat v s.ram } (demandByte off) v := by
  unfold State.storeByte
  simp only [place]
  exact if_pos captures

/-- A pocket's SEQ byte is kept for the frame's end (R5). -/
theorem State.storeByte_seq {s : State} (captures : s.captures = true) {f : FrameState}
    (frame : s.path.frame = some f) (p : Pocket) {addr : BitVec 17}
    (place : pageOffset s.blocks.demandBase addr = some (recordOffset (.pocket p))) (v : Byte) :
    s.storeByte addr v =
      { s with
        ram := writeRam addr.toNat v s.ram
        path := { s.path with frame := some (f.keep (.pocket p) v) } } := by
  rw [State.storeByte_of_captures captures place, demandByte_seq]
  simp only [State.captureByte, State.modPath, frame, Option.map_some]

/-- A pocket's ACTION byte is staged and touched (R4). -/
theorem State.storeByte_action {s : State} (captures : s.captures = true) (p : Pocket) {addr : BitVec 17}
    (place : pageOffset s.blocks.demandBase addr = some (recordOffset (.pocket p) + 1)) (v : Byte) :
    s.storeByte addr v =
      { s with
        ram := writeRam addr.toNat v s.ram
        path := s.path.setStaging (.pocket p) ((s.path.staging (.pocket p)).touch 1 v) } := by
  rw [State.storeByte_of_captures captures place, demandByte_action]
  rfl

/-- With one record due no choice is drawn. -/
theorem State.frameEnd_of_single {s : State} {r : RecordId} {seq : Byte} (due : s.dueTakes = [(r, seq)]) :
    s.frameEnd = s.takeRecord r seq := by
  unfold State.frameEnd
  rw [due]
  rfl

/-- The state within a frame of the appliance controller that meets no service access, its bytes on the link. -/
def State.inFrame (s : State) (toRam : List Byte) : State :=
  { s with
    pins := { s.pins with select := true }
    path := { s.path with frame := some { seqA := none, seqB := none, seqCommon := none } }
    link := { toRam := toRam, toRamCut := [], toController := [], toControllerCut := [] } }

/-- The state when a commit's two bytes are stored: both in the RAM, SEQ kept for the frame's end, ACTION staged. -/
def State.commitStored (s : State) (p : Pocket) (seq code : Byte) : State :=
  let at_ := s.demandAddress (recordOffset (.pocket p))
  let t := s.inFrame (s.blocks.storeCode :: addressBytes at_ ++ [seq, code])
  { t with
    ram := writeRamBytes (startAddress at_) [seq, code] s.ram
    path :=
      { t.path with
        frame := some (FrameState.keep { seqA := none, seqB := none, seqCommon := none } (.pocket p) seq) }.setStaging
        (.pocket p) ((s.path.staging (.pocket p)).touch 1 code) }

theorem State.storeBytes_commit {s : State} (captures : s.captures = true) (p : Pocket) (seq code : Byte) :
    (s.inFrame
      (s.blocks.storeCode :: addressBytes (s.demandAddress (recordOffset (.pocket p))) ++ [seq, code])).storeBytes
        (startAddress (s.demandAddress (recordOffset (.pocket p)))) [seq, code] = s.commitStored p seq code := by
  have inPage : recordOffset (.pocket p) + 1 < 256 := by cases p <;> decide
  have atSeq := pageOffset_base_add s.blocks.demandBase (Nat.lt_of_succ_lt inPage)
  have atAction := pageOffset_base_add s.blocks.demandBase inPage
  rw [BitVec.ofNat_add, ← BitVec.add_assoc] at atAction
  rw [startAddress_demandAddress, State.storeBytes, State.storeByte_seq (s := s.inFrame _) captures rfl p atSeq,
    State.storeBytes, State.storeBytes]
  refine (State.storeByte_action ?captures p ?atAction code).trans ?same
  case captures => exact captures
  case atAction => exact atAction
  case same => rw [State.commitStored, startAddress_demandAddress]; cases p <;> rfl

theorem State.commitStored_captures (s : State) (p : Pocket) (seq code : Byte) :
    (s.commitStored p seq code).captures = s.captures := by cases p <;> rfl

theorem State.commitStored_staging (s : State) (p : Pocket) (seq code : Byte) :
    (s.commitStored p seq code).path.staging (.pocket p) = (s.path.staging (.pocket p)).touch 1 code :=
  PathUnit.setStaging_staging ..

/-- A new SEQ makes the record due, and no other is (R6). -/
theorem State.commitStored_dueTakes {s : State} {p : Pocket} {seq : Byte}
    (new : (s.path.staging (.pocket p)).lastSeq ≠ seq) (code : Byte) :
    (s.commitStored p seq code).dueTakes = [(.pocket p, seq)] := by
  have frame : (s.commitStored p seq code).path.frame =
      some (FrameState.keep { seqA := none, seqB := none, seqCommon := none } (.pocket p) seq) := by cases p <;> rfl
  have last : ((s.path.staging (.pocket p)).touch 1 code).lastSeq ≠ seq := new
  rw [← s.commitStored_staging p seq code] at last
  unfold State.dueTakes
  rw [frame]
  cases p <;> simp [FrameState.keep, FrameState.kept, last.symm]

/-- A STORE frame that meets no service access, after whose bytes one record is due, takes that record. -/
theorem State.passStore_of_due {s t : State} {addr : BitVec 24} {data : List Byte} {r : RecordId} {seq : Byte}
    (access : s.path.access = none)
    (stored : (s.inFrame (s.blocks.storeCode :: addressBytes addr ++ data)).storeBytes (startAddress addr) data = t)
    (captures : t.captures = true) (due : t.dueTakes = [(r, seq)]) :
    s.passStore addr data .clean = (t.takeRecord r seq).endFrame false := by
  have begun : s.beginFrame.noteLink (s.beginFrame.blocks.storeCode :: addressBytes addr ++ data) [] [] [] =
      s.inFrame (s.blocks.storeCode :: addressBytes addr ++ data) := by
    rw [s.beginFrame_of_noAccess access]
    rfl
  unfold State.passStore
  simp only [FrameEnd.clean, begun, stored, captures, if_true, State.frameEnd_of_single due]

theorem exec_command (a : Action) (p : Pocket) (seq : Byte) (s : State) :
    exec (a.command p seq) s = .next (s.commitAction p seq a) := by
  cases a <;> rfl

/-- The take of a pocket's record in which ACTION alone is touched. -/
theorem State.takePocketRecord_of_action {s : State} {p : Pocket} {st : Staging} {code : Byte}
    (staged : s.path.staging (.pocket p) = st.touch 1 code) (untouched : st.Untouched 24) (seq : Byte)
    {result : ActionResult} {b : Blocks} (answers : s.blocks.answerCode p code.toNat = (result, b))
    (tuning : (b.pocket p).tuning = (s.blocks.pocket p).tuning) :
    s.takePocketRecord p seq =
      { s with
        blocks := (b.afterAnswer p seq result).settle
        path :=
          (s.path.setStaging (.pocket p)
            { bytes := restoreStaging (s.blocks.pocket p).tuning (st.bytes.set 1 code)
              touched := List.replicate 24 false
              lastSeq := seq }).setResult (.pocket p) (.ofAction seq result) } := by
  have kept : ((b.afterAnswer p seq result).settle.pocket p).tuning = (s.blocks.pocket p).tuning := by
    rw [Blocks.settle_tuning, Blocks.afterAnswer_tuning, tuning]
  have cleared : clearTouched (st.touch 1 code).touched = List.replicate 24 false := by
    rw [Staging.touch, untouched.2]; rfl
  unfold State.takePocketRecord
  simp only [staged, Blocks.takePocket_of_action _ _ untouched, answers, kept, cleared]
  rfl

/-- A commit that meets its conditions: the frame passes, and the record is taken with the action's answer alone. -/
theorem State.commitAction_of_ready {s : State} {p : Pocket} {seq : Byte} (ready : s.CommitReady (.pocket p) 24 seq)
    (a : Action) {result : ActionResult} {b : Blocks} (answers : s.blocks.answerCode p a.code.toNat = (result, b))
    (tuning : (b.pocket p).tuning = (s.blocks.pocket p).tuning) :
    s.commitAction p seq a = s.afterCommit p seq a.code result (b.afterAnswer p seq result).settle := by
  obtain ⟨run, captures, access, untouched, new⟩ := ready
  have powered : s.phase ≠ .off := by simp [run]
  rw [State.commitAction, State.whilePowered, if_neg powered,
    State.passStore_of_due access (State.storeBytes_commit captures p seq a.code)
      ((s.commitStored_captures p seq a.code).trans captures) (State.commitStored_dueTakes new a.code),
    State.takeRecord,
    State.takePocketRecord_of_action (s.commitStored_staging p seq a.code) untouched seq answers tuning]
  cases p <;> rfl

/-! ## The answer of an action (R10, R21) -/

theorem Action.answerCode_of_not_held (a : Action) {b : Blocks} {p : Pocket}
    (free : (b.pocket p).cycle.state ≠ .held) : b.answerCode p a.code.toNat = b.answerAction p a := by
  cases a <;> exact if_neg free

/-- A cause that the set holds already adds nothing to it. -/
theorem or_bit_of_inSet {set : BitVec 16} {k : Cause} (h : inSet set k = true) : set ||| k.bit = set := by
  rw [inSet] at h
  refine BitVec.eq_of_getLsbD_eq fun i hi => ?_
  by_cases e : i = k.number
  · simp [e, h]
  · have other : k.bit.getLsbD i = false := by
      simp only [Cause.bit, BitVec.getLsbD_shiftLeft, BitVec.getLsbD_one]
      grind
    simp [other]

theorem Blocks.raiseCause_take (b : Blocks) : b.raiseCause .take = b.withPending 0x4000 := by
  unfold Blocks.raiseCause Blocks.makePending
  split
  case isTrue h =>
    exact congrArg (fun x => { b with alerts := { b.alerts with pending := x } }) (or_bit_of_inSet h).symm
  case isFalse => rfl

theorem Blocks.afterAnswer_accepted (b : Blocks) (p : Pocket) (seq : Byte) :
    b.afterAnswer p seq .accepted = b.reloadFreshness p := rfl

theorem Blocks.afterAnswer_notNow (b : Blocks) (p : Pocket) (seq : Byte) :
    b.afterAnswer p seq .notNow = (b.reloadFreshness p).withPending 0x4000 :=
  Blocks.raiseCause_take _

theorem Blocks.afterAnswer_sameLists (b : Blocks) (p : Pocket) (seq : Byte) (a : ActionResult) :
    b.SameLists (b.afterAnswer p seq a) := by
  have reloaded : b.SameLists (b.reloadFreshness p) := b.modCycle_sameLists p _
  unfold Blocks.afterAnswer Blocks.raiseTake
  split
  · exact reloaded.trans (Blocks.raiseCause_sameLists _ _)
  · exact reloaded

/-- What a commit that meets its conditions answers, outside HELD, is what its action answers. -/
theorem State.settlesAs_of_answer {s : State} {p : Pocket} {seq : Byte} (ready : s.CommitReady (.pocket p) 24 seq)
    (a : Action) (free : (s.blocks.pocket p).cycle.state ≠ .held) {result : ActionResult} {b before : Blocks}
    (answers : s.blocks.answerAction p a = (result, b)) (tuning : (b.pocket p).tuning = (s.blocks.pocket p).tuning)
    (lists : s.blocks.SameLists b) (same : b.afterAnswer p seq result = before) :
    s.SettlesAs (a.command p seq) (s.afterCommit p seq a.code result) before := by
  refine State.settlesAs_of_settle ?_ same (lists.trans (b.afterAnswer_sameLists p seq result))
  rw [exec_command, State.commitAction_of_ready ready a ((a.answerCode_of_not_held free).trans answers) tuning]

theorem State.turnsAway_of_notNow {s : State} {p : Pocket} {seq : Byte} (ready : s.CommitReady (.pocket p) 24 seq)
    (a : Action) (free : (s.blocks.pocket p).cycle.state ≠ .held)
    (answers : s.blocks.answerAction p a = (.notNow, s.blocks)) : s.TurnsAway p seq a :=
  State.settlesAs_of_answer ready a free answers rfl (Blocks.SameLists.refl _) (Blocks.afterAnswer_notNow ..)

theorem Blocks.readyToRun_iff (b : Blocks) (p : Pocket) :
    b.readyToRun p = true ↔ b.doorClosed p = true ∧ b.lintPresent p = true ∧ (b.pocket p).cycle.lockout = none ∧
      b.lockoutConditions p = [] := by
  simp [Blocks.readyToRun, and_assoc]

theorem Blocks.answerStart_of_ready {b : Blocks} {p : Pocket}
    (state : (b.pocket p).cycle.state = .idle ∨ (b.pocket p).cycle.state = .done) (ready : b.readyToRun p = true) :
    b.answerStart p = (.accepted, (b.modPocket p (PocketUnit.startCycle b.freshSeconds)).runRequest p) := by
  obtain idle | done := state
  · simp [Blocks.answerStart, idle, ready]
  · simp [Blocks.answerStart, done, ready]

theorem Blocks.answerStart_of_not_ready {b : Blocks} {p : Pocket}
    (unmet : ¬(((b.pocket p).cycle.state = .idle ∨ (b.pocket p).cycle.state = .done) ∧ b.readyToRun p = true)) :
    b.answerStart p = (.notNow, b) := by
  unfold Blocks.answerStart
  split
  case h_3 => rfl
  all_goals exact if_neg fun ready => unmet ⟨by simp [*], ready⟩

/-! ## The run request of an action (R56, R57) -/

theorem Blocks.drumFault_tuning (b : Blocks) (p : Pocket) (k : DrumFault) :
    ((b.drumFault p k).pocket p).tuning = (b.pocket p).tuning := by
  unfold Blocks.drumFault Blocks.answerDrumFault
  split <;> simp [Blocks.goFaulted_eq, Blocks.raiseCause, Blocks.makePending_pocket]

theorem Blocks.afterSpinUp_tuning (b : Blocks) (p : Pocket) (dir : Direction) :
    ((b.afterSpinUp p dir).pocket p).tuning = (b.pocket p).tuning := by
  unfold Blocks.afterSpinUp
  split
  · exact b.drumFault_tuning p .belt
  · cases p <;> rfl

theorem Blocks.makePending_reloadFreshness (b : Blocks) (k : Cause) (p : Pocket) :
    (b.makePending k).reloadFreshness p = (b.reloadFreshness p).makePending k := by
  have cycle : ∀ q, ((b.reloadFreshness p).pocket q).cycle.state = (b.pocket q).cycle.state ∧
      ((b.reloadFreshness p).pocket q).cycle.elapsed = (b.pocket q).cycle.elapsed := fun q => by
    cases p <;> cases q <;> exact ⟨rfl, rfl⟩
  have alerts : (b.reloadFreshness p).alerts = b.alerts := b.modCycle_alerts p _
  have entry : (b.reloadFreshness p).entryFor k = b.entryFor k := by simp [Blocks.entryFor, cycle, alerts]
  unfold Blocks.makePending
  rw [entry, alerts]
  split
  · rfl
  · split <;> cases p <;> rfl

theorem Blocks.answerDrumFault_reloadFreshness (b : Blocks) (p : Pocket) :
    (b.answerDrumFault p).reloadFreshness p = (b.reloadFreshness p).answerDrumFault p := by
  have state : ((b.reloadFreshness p).pocket p).cycle.state = (b.pocket p).cycle.state := by cases p <;> rfl
  unfold Blocks.answerDrumFault
  rw [state]
  split <;> cases p <;> rfl

/-- The reload of freshness meets nothing that a drum fault reads or changes. -/
theorem Blocks.drumFault_reloadFreshness (b : Blocks) (p : Pocket) (k : DrumFault) :
    (b.drumFault p k).reloadFreshness p = (b.reloadFreshness p).drumFault p k := by
  unfold Blocks.drumFault Blocks.raiseCause
  rw [Blocks.answerDrumFault_reloadFreshness, Blocks.makePending_reloadFreshness]
  cases p <;> rfl

theorem Blocks.afterSpinUp_reloadFreshness (b : Blocks) (p : Pocket) (dir : Direction) :
    (b.afterSpinUp p dir).reloadFreshness p = (b.reloadFreshness p).afterSpinUp p dir := by
  have belt : (b.reloadFreshness p).beltBroken p = b.beltBroken p := by cases p <;> rfl
  unfold Blocks.afterSpinUp
  rw [belt]
  split
  · exact b.drumFault_reloadFreshness p .belt
  · cases p <;> rfl

/-- The run request held, before the drum may spin up. -/
def Blocks.runHeld (b : Blocks) (p : Pocket) : Blocks := b.modDrum p fun d => { d with request := .run }

/-- A run request holds RUN and, with the drum standing still and its stop confirmed, spins up (R56, R57). -/
theorem Blocks.runRequest_eq (b : Blocks) (p : Pocket) :
    b.runRequest p =
      if b.spinsUp (b.pocket p).drum then (b.runHeld p).afterSpinUp p ((b.runHeld p).pocket p).spinDirection
      else b.runHeld p := by
  have due : ((b.runHeld p).pocket p).drum.state = .stopped ∧ ((b.runHeld p).pocket p).drum.request ≠ .stop ∧
      ((b.runHeld p).pocket p).drum.confirmed = true ∧ (b.runHeld p).held = false ∧
        (b.runHeld p).optionState = .valid ↔ b.spinsUp (b.pocket p).drum = true := by
    simp [Blocks.runHeld, Blocks.spinsUp, Blocks.valid, and_assoc]
  change (b.runHeld p).trySpinUp p = _
  unfold Blocks.trySpinUp Blocks.afterSpinUp
  simp only [due]
  by_cases spins : b.spinsUp (b.pocket p).drum = true
  · rw [if_pos spins, if_pos spins]
    by_cases broken : (b.runHeld p).beltBroken p = true
    · rw [if_pos broken, if_pos broken]
    · rw [if_neg broken, if_neg broken]
      cases p <;> rfl
  · rw [if_neg spins, if_neg spins]

theorem Blocks.runRequest_of_runHeld {b begun : Blocks} {p : Pocket} {spins : Bool} {dir : Direction}
    (held : b.runHeld p = begun) (due : b.spinsUp (b.pocket p).drum = spins)
    (next : (begun.pocket p).spinDirection = dir) :
    b.runRequest p = if spins then begun.afterSpinUp p dir else begun := by
  rw [Blocks.runRequest_eq, held, due, next]

theorem Blocks.runRequest_tuning (b : Blocks) (p : Pocket) :
    ((b.runRequest p).pocket p).tuning = (b.pocket p).tuning := by
  have held : ((b.runHeld p).pocket p).tuning = (b.pocket p).tuning := by cases p <;> rfl
  rw [Blocks.runRequest_eq]
  split
  · rw [Blocks.afterSpinUp_tuning, held]
  · exact held

theorem Blocks.runRequest_reloadFreshness (b : Blocks) (p : Pocket) :
    (b.runRequest p).reloadFreshness p = (b.reloadFreshness p).runRequest p := by
  have spins : (b.reloadFreshness p).spinsUp ((b.reloadFreshness p).pocket p).drum = b.spinsUp (b.pocket p).drum := by
    cases p <;> rfl
  rw [Blocks.runRequest_eq, Blocks.runRequest_eq, spins]
  split
  · rw [Blocks.afterSpinUp_reloadFreshness]
    cases p <;> rfl
  · cases p <;> rfl

/-! ## START and RESUME (R22, R24) -/

theorem Blocks.answerResume_of_ready {b : Blocks} {p : Pocket} (state : (b.pocket p).cycle.state = .paused)
    (ready : b.readyToRun p = true) :
    b.answerResume p =
      (.accepted,
        (b.modCycle p fun c => { c with state := .starting, startTarget := c.resume, resume := none }).runRequest p) :=
  if_pos ⟨state, ready⟩

/-- An accepted action that changes its pocket and then requests a run: freshness may as well be reloaded before the
request. -/
theorem State.settlesAs_of_runRequest {s : State} {p : Pocket} {seq : Byte} (ready : s.CommitReady (.pocket p) 24 seq)
    (a : Action) (free : (s.blocks.pocket p).cycle.state ≠ .held) {f : PocketUnit → PocketUnit}
    (answers : s.blocks.answerAction p a = (.accepted, (s.blocks.modPocket p f).runRequest p))
    (keeps : ∀ u, (f u).tuning = u.tuning ∧ (f u).stage1 = u.stage1 ∧ (f u).stage2 = u.stage2) :
    s.SettlesAs (a.command p seq) (s.afterCommit p seq a.code .accepted)
      (((s.blocks.modPocket p f).reloadFreshness p).runRequest p) := by
  refine State.settlesAs_of_answer ready a free answers ?tuning ?lists
    ((Blocks.afterAnswer_accepted ..).trans (Blocks.runRequest_reloadFreshness ..))
  case tuning => rw [Blocks.runRequest_tuning, Blocks.modPocket_pocket, (keeps _).1]
  case lists =>
    exact (s.blocks.modPocket_sameLists p f fun u => (keeps u).2).trans (Blocks.runRequest_sameLists _ p)

/-- Settles O22: START is accepted where its conditions are met, and its run request spins the drum up FWD, the next
direction it has just set. -/
theorem startBeginsACycle : Obligations.StartBeginsACycle := by
  intro s p seq ready
  refine ⟨fun ⟨state, conditions⟩ => ?accepted, fun unmet free => ?refused⟩
  case accepted =>
    have free : (s.blocks.pocket p).cycle.state ≠ .held := by rintro held; simp [held] at state
    have answers := Blocks.answerStart_of_ready state ((s.blocks.readyToRun_iff p).2 conditions)
    have settles := State.settlesAs_of_runRequest ready .start free answers fun _ => ⟨rfl, rfl, rfl⟩
    rw [Blocks.runRequest_of_runHeld (spins := s.blocks.spinsUp (s.blocks.pocket p).drum) (dir := .fwd) rfl
      (by cases p <;> rfl) (by cases p <;> exact ite_self _)] at settles
    cases p <;> exact settles
  case refused =>
    refine State.turnsAway_of_notNow ready .start free (Blocks.answerStart_of_not_ready ?_)
    rwa [Blocks.readyToRun_iff]

/-- Settles O24: RESUME is accepted where its conditions are met, and its run request spins the drum up in its next
direction. -/
theorem resumeTakesTheCycleUp : Obligations.ResumeTakesTheCycleUp := by
  intro s p seq ready
  refine ⟨fun ⟨state, conditions⟩ => ?accepted, fun unmet free => ?refused⟩
  case accepted =>
    have free : (s.blocks.pocket p).cycle.state ≠ .held := by simp [state]
    have answers := Blocks.answerResume_of_ready state ((s.blocks.readyToRun_iff p).2 conditions)
    have settles := State.settlesAs_of_runRequest ready .resume free answers fun _ => ⟨rfl, rfl, rfl⟩
    rw [Blocks.runRequest_of_runHeld (spins := s.blocks.spinsUp (s.blocks.pocket p).drum) rfl (by cases p <;> rfl) rfl]
      at settles
    cases p <;> exact settles
  case refused =>
    refine State.turnsAway_of_notNow ready .resume free (if_neg ?_)
    rwa [Blocks.readyToRun_iff]

end Sys2Proof.Machine
end

section
/-! SUPPORT. What one step can do, said once: the quiet changes of the blocks, the takes, the events before their end, and
for every command which of them it is (R16, R172, R173). The laws that every step keeps go through these. -/

namespace Sys2Proof.Machine

open Relation (ReflTransGen)

/-! ## What can happen to the blocks -/

/-- A change of the blocks at which no event ends: it moves no stage and neither the permission nor the budget. -/
inductive Blocks.Quiet : Blocks → Blocks → Prop
  | draws (b : Blocks) (n : Nat) : Quiet b { b with draws := n }
  | freshness (b : Blocks) (p : Pocket) : Quiet b (b.reloadFreshness p)
  | lastSample (b : Blocks) (p : Pocket) (v : Nat) : Quiet b (b.modDryness p fun d => { d with lastSample := v })
  | peak (b : Blocks) (v : Nat) : Quiet b (b.modMains fun m => { m with keptPeak := max m.keptPeak v })
  | held (b : Blocks) (i : Nat) (high : Bool) :
      Quiet b (b.modInput i fun u => { u with pin := high, previous := high, stability := 200 })
  | forced (b : Blocks) (causes : BitVec 16) :
      Quiet b { b with alerts := { b.alerts with forced := b.alerts.forced ||| causes } }

/-- The blocks a take of a pocket's record leaves before its end (R8). -/
def Blocks.pocketTaken (b : Blocks) (p : Pocket) (st : Staging) (seq : Byte) : Blocks :=
  let j := judgeFields (b.pocket p) st
  let answered :=
    if st.touched.getD 1 false then (b.deliver p j).answerCode p (st.bytes.getD 1 0).toNat else (.none, b.deliver p j)
  (answered.2.reloadFreshness p).raiseTake
    { seq := seq, action := answered.1, clamped := j.clamped, torn := j.torn, refused := j.refused }

/-- The blocks a take of the common record leaves before its end (R153). -/
def Blocks.commonTaken (b : Blocks) (j : CommonJudged) (r : TakeResult) : Blocks :=
  ((((b.setEnabled j.enable).clearFaults j.clearList).ackWhole j.ack).setSupply j.supply).raiseTake r

/-- What the memory path does to the blocks, one quiet change or one take at a time. -/
inductive Blocks.PathStep : Blocks → Blocks → Prop
  | quiet {b c : Blocks} (h : b.Quiet c) : PathStep b c
  | pocket (b : Blocks) (p : Pocket) (st : Staging) (seq : Byte) : PathStep b (b.pocketTaken p st seq).settle
  | common (b : Blocks) (j : CommonJudged) (r : TakeResult) : PathStep b (b.commonTaken j r).settle

/-- What an event other than a take does to the blocks before its end, with the conditions it takes place under. -/
inductive Blocks.Happens : Blocks → Blocks → Prop
  | timeLimit (b : Blocks) (p : Pocket) : Happens b (b.judgeTimeLimit p)
  | extensionEnd (b : Blocks) (p : Pocket) (h : (b.pocket p).cycle.state = .extending) :
      Happens b (b.enterCooling p (some .confirmedDry))
  | coolTime (b : Blocks) (p : Pocket) (h : (b.pocket p).cycle.state = .cooling) : Happens b (b.coolEnd p)
  | burst (b : Blocks) (p : Pocket) : Happens b ((b.modCycle p fun c => { c with creaseTimer := 0 }).burstRequest p)
  | guardEnd (b : Blocks) (p : Pocket) (h : (b.pocket p).cycle.state = .creaseGuard) : Happens b (b.enterDone p)
  | stale (b : Blocks) (p : Pocket) :
      Happens b (((b.modCycle p fun c => { c with freshness := 0 }).raiseCause (.stale p)).lockoutFault p .stale)
  | pulse (b : Blocks) (p : Pocket) (i : Nat) (high : Bool) : Happens b ((b.samplePulse i high).pulse p)
  | silence (b : Blocks) (p : Pocket) : Happens b (b.silenceReached p)
  | spinupFail (b : Blocks) (p : Pocket) :
      Happens b ((b.modDrum p fun d => { d with spinTimer := 10000 }).drumFault p .spinupFail)
  | runEnd (b : Blocks) (p : Pocket) : Happens b (b.judgeRunEnd p)
  | coastEnd (b : Blocks) (p : Pocket) (h : (b.pocket p).drum.state = .coast) : Happens b (b.judgeCoast p)
  | noStop (b : Blocks) (p : Pocket) (h : (b.pocket p).drum.state = .coast) : Happens b (b.coastLimit p)
  | sample (b : Blocks) (ch : Sensor) (raw : Nat) : Happens b (b.takeSample ch raw)
  | dwellEnd (b : Blocks) (st : Stage) (h : (b.stage st).state = .dwell) :
      Happens b (b.modStage st fun u => { u with state := .off, dwell := 5000, ended := true })
  | allowanceEnd (b : Blocks) (p : Pocket) : Happens b (b.modLoad fun l => l.setAllowance p none)
  | pacing (b : Blocks) : Happens b (b.modLoad fun l => { l with pacing := 250 })
  | notBefore (b : Blocks) (st : Stage) : Happens b (b.modLoad fun l => { l with queue := clearNotBefore st l.queue })
  | crossing (b : Blocks) (v : Nat) :
      Happens b (b.modMains fun m => { m with keptPeak := max m.keptPeak v }).crossing
  | mainsLost (b : Blocks) : Happens b b.loseMains
  | gated (b : Blocks) (p : Pocket) (v : Nat) :
      Happens b ((b.modDryness p fun d => { d with lastSample := v }).gatedSample p v)
  | input (b : Blocks) (i : Nat) (high : Bool) (f : InputFunction) (was now : Level) :
      Happens b ((b.modInput i fun u =>
        { u with pin := high, previous := high, stability := 200, level := now }).handChange f was now)
  | chord (b : Blocks) : Happens b b.panelStop
  | hold (b : Blocks) (h : b.held = false) :
      Happens b ((((({ b with held := true } : Blocks).holdPocket .a).holdPocket .b).holdStages .a).holdStages
        .b |>.raiseCause .service)
  | release (b : Blocks) :
      Happens b ((((({ b with held := false } : Blocks).releasePocket .a).releasePocket .b).trySpinUp .a).trySpinUp
        .b |>.raiseCause .service)

/-- What a command that is no reset does to the blocks. -/
inductive Blocks.Becomes (b : Blocks) : Blocks → Prop
  | path {c : Blocks} (h : ReflTransGen PathStep b c) : Becomes b c
  | event {c : Blocks} (h : b.Happens c) : Becomes b c.settle

theorem Blocks.Becomes.refl (b : Blocks) : b.Becomes b := .path .refl

theorem Blocks.Becomes.quiet {b c : Blocks} (h : b.Quiet c) : b.Becomes c := .path (.single (.quiet h))

/-! ## The memory path -/

/-- What the operations of the memory path and of the arbiter do to a state: the phase stands, the blocks change by steps
of the path, and the RAM keeps its canonical form. -/
structure State.PathRel (s t : State) : Prop where
  phase : t.phase = s.phase
  blocks : ReflTransGen Blocks.PathStep s.blocks t.blocks
  ram : Memory.wf s.ram = true → Memory.wf t.ram = true

theorem State.PathRel.refl (s : State) : s.PathRel s := ⟨rfl, .refl, id⟩

theorem State.PathRel.trans {s t u : State} (h : s.PathRel t) (k : t.PathRel u) : s.PathRel u :=
  ⟨k.phase.trans h.phase, h.blocks.trans k.blocks, fun w => k.ram (h.ram w)⟩

/-- An operation that leaves phase, blocks and RAM alone. -/
theorem State.PathRel.of_same {s t : State} (phase : t.phase = s.phase) (blocks : t.blocks = s.blocks)
    (ram : t.ram = s.ram) : s.PathRel t :=
  ⟨phase, blocks ▸ .refl, ram ▸ id⟩

theorem State.modService_pathRel (s : State) (f : ServiceUnit → ServiceUnit) : s.PathRel (s.modService f) :=
  .of_same rfl rfl rfl

theorem State.noteLink_pathRel (s : State) (toRam : List Byte) (toRamCut : List Bool) (toController : List Byte)
    (toControllerCut : List Bool) : s.PathRel (s.noteLink toRam toRamCut toController toControllerCut) :=
  .of_same rfl rfl rfl

theorem State.modBlocks_draws_pathRel (s : State) (f : Blocks → Nat) :
    s.PathRel (s.modBlocks fun b => { b with draws := f b }) :=
  ⟨rfl, .single (.quiet (.draws _ _)), id⟩

theorem State.pokeBytes_pathRel (s : State) (acc : Access) (k : Nat) : s.PathRel (s.pokeBytes acc k) := by
  unfold State.pokeBytes
  split
  · exact .refl s
  · exact ⟨rfl, .refl, writeRamBytes_wf _ _⟩

theorem State.handAccess_pathRel (s : State) (acc : Access) : s.PathRel (s.handAccess acc) := by
  unfold State.handAccess
  split <;> exact .of_same rfl rfl rfl

theorem State.endAccess_pathRel (s : State) (acc : Access) (r : CommandResult) (k : Nat) (data : List Byte) :
    s.PathRel (s.endAccess acc r k data) := by
  unfold State.endAccess
  obtain ⟨s₂, h⟩ : ∃ s₂, s₂ = if acc.owned then
      (s.modPath fun u => { u with access := none }).modService fun u => u.complete r k (accessAnswer acc r k data)
    else s.modPath fun u => { u with access := none } := ⟨_, rfl⟩
  have ended : s.PathRel s₂ := by rw [h]; split <;> exact .of_same rfl rfl rfl
  dsimp only
  rw [← h]
  split
  · exact ended.trans ((State.modService_pathRel _ _).trans (State.handAccess_pathRel _ _))
  · exact ended

theorem State.noteAccess_pathRel (s : State) (acc : Access) (k : Nat) : s.PathRel (s.noteAccess acc k) :=
  .of_same rfl rfl rfl

theorem State.cutAccess_pathRel (s : State) (acc : Access) (k : Nat) : s.PathRel (s.cutAccess acc k) :=
  ((s.pokeBytes_pathRel acc _).trans (State.noteAccess_pathRel _ _ _)).trans (State.endAccess_pathRel ..)

theorem State.finishAccess_pathRel (s : State) (acc : Access) : s.PathRel (s.finishAccess acc) :=
  ((s.pokeBytes_pathRel acc _).trans (State.noteAccess_pathRel _ _ _)).trans (State.endAccess_pathRel ..)

theorem State.assertSelect_pathRel (s : State) (done : Option Nat) : s.PathRel (s.assertSelect done) := by
  have selected : s.PathRel { s with pins := { s.pins with select := true } } := .of_same rfl rfl rfl
  unfold State.assertSelect
  dsimp only
  split
  · split
    · split
      · exact selected.trans (State.cutAccess_pathRel _ _ _)
      · exact selected.trans ((State.cutAccess_pathRel _ _ _).trans (State.modBlocks_draws_pathRel _ fun b => b.draws + 1))
    · exact selected
  · exact selected

theorem State.beginFrame_pathRel (s : State) : s.PathRel s.beginFrame :=
  (s.assertSelect_pathRel none).trans (.of_same rfl rfl rfl)

theorem State.endFrame_pathRel (s : State) (again : Bool) : s.PathRel (s.endFrame again) := .of_same rfl rfl rfl

theorem State.captureByte_pathRel (s : State) (d : DemandByte) (v : Byte) : s.PathRel (s.captureByte d v) := by
  cases d with
  | keepalive p => exact ⟨rfl, .single (.quiet (.freshness _ p)), id⟩
  | seq | field | ordinary => exact .of_same rfl rfl rfl

theorem State.storeByte_pathRel (s : State) (addr : BitVec 17) (v : Byte) : s.PathRel (s.storeByte addr v) := by
  have written : s.PathRel { s with ram := writeRam addr.toNat v s.ram } := ⟨rfl, .refl, fun h => writeRam_wf v h addr.isLt⟩
  unfold State.storeByte
  dsimp only
  split
  · split
    · exact written.trans (State.captureByte_pathRel _ _ _)
    · exact written
  · exact written

theorem State.storeBytes_pathRel (s : State) (addr : BitVec 17) (data : List Byte) : s.PathRel (s.storeBytes addr data) := by
  induction data generalizing s addr with
  | nil => exact .refl s
  | cons v rest ih => exact (s.storeByte_pathRel addr v).trans (ih _ _)

theorem State.takePocketRecord_blocks (s : State) (p : Pocket) (seq : Byte) :
    (s.takePocketRecord p seq).blocks = (s.blocks.pocketTaken p (s.path.staging (.pocket p)) seq).settle := by
  simp only [State.takePocketRecord, Blocks.takePocket, Blocks.pocketTaken]

theorem State.takeCommonRecord_blocks (s : State) (seq : Byte) :
    ∃ j r, (s.takeCommonRecord seq).blocks = (s.blocks.commonTaken j r).settle := by
  simp only [State.takeCommonRecord, Blocks.commonTaken]
  exact ⟨_, _, rfl⟩

theorem State.takeRecord_pathRel (s : State) (r : RecordId) (seq : Byte) : s.PathRel (s.takeRecord r seq) := by
  cases r with
  | pocket p => exact ⟨rfl, .single (s.takePocketRecord_blocks p seq ▸ .pocket _ p _ seq), id⟩
  | common =>
    obtain ⟨j, r, taken⟩ := s.takeCommonRecord_blocks seq
    exact ⟨rfl, .single (taken ▸ .common _ j r), id⟩

theorem State.takeAll_pathRel (s : State) (order : List (RecordId × Byte)) : s.PathRel (s.takeAll order) := by
  induction order generalizing s with
  | nil => exact .refl s
  | cons rv rest ih => exact (s.takeRecord_pathRel rv.1 rv.2).trans (ih _)

theorem State.frameEnd_pathRel (s : State) : s.PathRel s.frameEnd :=
  (s.modBlocks_draws_pathRel fun _ => (shuffle 3 s.blocks.draws s.dueTakes).2).trans (State.takeAll_pathRel _ _)

theorem State.passStore_pathRel (s : State) (addr : BitVec 24) (data : List Byte) (ends : FrameEnd (List Bool)) :
    s.PathRel (s.passStore addr data ends) := by
  unfold State.passStore
  dsimp only
  have stored := (s.beginFrame_pathRel.trans (State.noteLink_pathRel _ _ _ _ _)).trans
    (State.storeBytes_pathRel (s.beginFrame.noteLink (s.beginFrame.blocks.storeCode :: addressBytes addr ++ data)
      ends.cut [] []) (startAddress addr) data)
  refine stored.trans (State.PathRel.trans ?_ (State.endFrame_pathRel _ _))
  split
  · exact State.frameEnd_pathRel _
  · exact .refl _

theorem State.passFetch_pathRel (s : State) (addr : BitVec 24) (n : Nat) (ends : FrameEnd Nat) :
    s.PathRel (s.passFetch addr n ends) :=
  s.beginFrame_pathRel.trans (.of_same rfl rfl rfl)

theorem State.passOpaque_pathRel (s : State) (bytes : List Byte) (ends : FrameEnd (List Bool)) (answer : RamAnswer) :
    s.PathRel (s.passOpaque bytes ends answer) :=
  s.beginFrame_pathRel.trans (.of_same rfl rfl rfl)

theorem State.passFrame_pathRel (s : State) (bytes : List Byte) (ends : FrameEnd (List Bool)) (answer : RamAnswer) :
    s.PathRel (s.passFrame bytes ends answer) := by
  unfold State.passFrame
  split
  · exact s.passStore_pathRel _ _ _
  · exact s.passFetch_pathRel _ _ _
  · exact s.passOpaque_pathRel _ _ _
  · exact s.passOpaque_pathRel _ _ _

theorem State.whilePowered_pathRel (s : State) (f : State → State) (h : s.PathRel (f s)) :
    s.PathRel (s.whilePowered f) := by
  unfold State.whilePowered
  split
  · exact .refl s
  · exact h

theorem State.commitAction_pathRel (s : State) (p : Pocket) (seq : Byte) (a : Action) :
    s.PathRel (s.commitAction p seq a) :=
  s.whilePowered_pathRel _ (s.passStore_pathRel _ _ _)

/-! ## The service line -/

theorem State.whileRunning_pathRel (s : State) (f : State → State) (h : s.PathRel (f s)) :
    s.PathRel (s.whileRunning f) := by
  unfold State.whileRunning
  split
  · exact h
  · exact .refl s

theorem State.execute_pathRel (s : State) (bytes : List Byte) (f : State → State) (h : ∀ t, State.PathRel t (f t)) :
    s.PathRel (s.execute bytes f) := by
  refine s.whileRunning_pathRel _ ?_
  split
  · exact (s.modService_pathRel _).trans (h _)
  · exact .refl s

theorem State.meetLink_pathRel (s : State) (busy : Bool) : s.PathRel (s.meetLink busy) := by
  unfold State.meetLink
  split
  · exact s.assertSelect_pathRel none
  · exact .refl s

theorem State.submitAccess_pathRel (s : State) (acc : Access) : s.PathRel (s.submitAccess acc) := by
  unfold State.submitAccess
  split
  · exact .of_same rfl rfl rfl
  · exact s.handAccess_pathRel acc

theorem State.runOption_pathRel (s : State) (c : OptionCommand) : s.PathRel (s.runOption c) := by
  cases c with
  | read off n => unfold State.runOption; dsimp only; split <;> exact .of_same rfl rfl rfl
  | write off n data => unfold State.runOption; dsimp only; split <;> exact .of_same rfl rfl rfl

theorem State.handOption_pathRel (s : State) (c : OptionCommand) : s.PathRel (s.handOption c) := by
  unfold State.handOption
  split
  · exact .of_same rfl rfl rfl
  · exact s.runOption_pathRel c

end Sys2Proof.Machine
end

section
/-! SUPPORT. Every command is a path operation, an event, a reset or the end of a start-up (R172, R173). -/

namespace Sys2Proof.Machine

/-- What a command does to phase and blocks: a command of a powered or running part keeps the phase; a reset or a falling
supply leaves the running phase with the outputs off; the end of a start-up gives the reset values. -/
inductive State.Turns (s t : State) : Prop
  | goesOn (phase : t.phase = s.phase) (blocks : s.blocks.Becomes t.blocks)
  | stops (phase : t.phase ≠ .running)
      (blocks : t.blocks = s.blocks ∨ ∃ n, t.blocks = Blocks.deEnergise { s.blocks with draws := n })
  | starts (phase : t.phase = .running) (row : List Byte) (k : ResetKind) (blocks : t.blocks = s.blocks.afterReset row k)

/-- What a command does to phase and blocks, and to the RAM, whose canonical form it keeps. -/
structure State.Does (s t : State) : Prop where
  turns : s.Turns t
  ram : Memory.wf s.ram = true → Memory.wf t.ram = true

theorem State.PathRel.does {s t : State} (h : s.PathRel t) : s.Does t := ⟨.goesOn h.phase (.path h.blocks), h.ram⟩

theorem State.Does.refl (s : State) : s.Does s := (State.PathRel.refl s).does

/-- A command that changes the blocks and keeps the phase and the RAM. -/
theorem State.Does.onBlocks {s t : State} (phase : t.phase = s.phase) (ram : t.ram = s.ram)
    (blocks : s.blocks.Becomes t.blocks) : s.Does t :=
  ⟨.goesOn phase blocks, ram ▸ id⟩

/-- A change of the service line unit does no more to phase, blocks and RAM. -/
theorem State.Does.modService {s t : State} (h : s.Does t) (f : ServiceUnit → ServiceUnit) : s.Does (t.modService f) := by
  refine ⟨?_, h.ram⟩
  cases h.turns with
  | goesOn phase blocks => exact .goesOn phase blocks
  | stops phase blocks => exact .stops phase blocks
  | starts phase row k blocks => exact .starts phase row k blocks

theorem State.Does.of_modService {s t : State} (f : ServiceUnit → ServiceUnit) (h : (s.modService f).Does t) :
    s.Does t := by
  refine ⟨?_, h.ram⟩
  cases h.turns with
  | goesOn phase blocks => exact .goesOn phase blocks
  | stops phase blocks => exact .stops phase blocks
  | starts phase row k blocks => exact .starts phase row k blocks

/-! ## Events of the blocks -/

theorem State.whileRunning_does {s : State} {f : State → State} (h : s.Does (f s)) : s.Does (s.whileRunning f) := by
  unfold State.whileRunning
  split
  · exact h
  · exact .refl s

/-- An event that takes place under its condition and ends on the blocks it leaves. -/
theorem State.onBlocks_does {s : State} {due : Blocks → Bool} {f : Blocks → Blocks}
    (h : due s.blocks = true → s.blocks.Happens (f s.blocks)) :
    s.Does (s.onBlocks fun b => b.when (due b) fun b => (f b).settle) := by
  refine State.whileRunning_does (.onBlocks rfl rfl ?_)
  rw [State.modBlocks_blocks, Blocks.when]
  split
  · exact .event (h ‹_›)
  · exact .refl _

theorem execTachPulse_does (p : Pocket) (s t : State) (h : execTachPulse p s = .next t) : s.Does t := by
  unfold execTachPulse at h
  cases h
  refine State.whileRunning_does ?_
  split
  · split
    · exact .onBlocks rfl rfl (.event (.pulse _ p _ _))
    · exact .refl s
  · exact .refl s

theorem execElectrodeSample_does (p : Pocket) (v : BitVec 10) (s t : State) (h : execElectrodeSample p v s = .next t) :
    s.Does t := by
  unfold execElectrodeSample at h
  cases h
  refine State.whileRunning_does (.onBlocks rfl rfl ?_)
  rw [State.modBlocks_blocks, Blocks.electrode]
  dsimp only
  split
  · exact .event (.gated _ p _)
  · exact .quiet (.lastSample _ p _)

/-- An input whose debounced level stands keeps it in the event. -/
theorem Blocks.modInput_same (b : Blocks) (i : Nat) (high : Bool) :
    (b.modInput i fun u => { u with pin := high, previous := high, stability := 200, level := (b.input i).level }) =
      b.modInput i fun u => { u with pin := high, previous := high, stability := 200 } := rfl

theorem execDebouncedChange_does (i : Fin 12) (high : Bool) (s t : State)
    (h : execDebouncedChange i high s = .next t) : s.Does t := by
  unfold execDebouncedChange at h
  cases h
  refine State.whileRunning_does ?_
  split
  · refine .onBlocks rfl rfl ?_
    rw [State.modBlocks_blocks, Blocks.debounce]
    dsimp only
    split
    case isTrue same =>
      rw [← same, Blocks.modInput_same]
      exact .quiet (.held _ _ _)
    case isFalse => exact .event (.input _ _ _ _ _ _)
  · exact .refl s

theorem execZeroCrossing_does (peak : Byte) (s t : State) (h : execZeroCrossing peak s = .next t) : s.Does t := by
  unfold execZeroCrossing at h
  cases h
  refine State.whileRunning_does (.onBlocks rfl rfl ?_)
  rw [State.modBlocks_blocks, Blocks.when]
  split
  · exact .event (.crossing _ _)
  · exact .quiet (.peak _ _)

theorem execTemperatureSample_does (ch : Sensor) (raw : BitVec 10) (s t : State)
    (h : execTemperatureSample ch raw s = .next t) : s.Does t := by
  unfold execTemperatureSample at h
  cases h
  exact State.whileRunning_does (.onBlocks rfl rfl (.event (.sample _ ch _)))

/-! ## Service commands -/

/-- A service command does what its meaning does to any state. -/
theorem State.execute_does {s : State} {bytes : List Byte} {f : State → State} (h : ∀ t, State.Does t (f t)) :
    s.Does (s.execute bytes f) := by
  refine State.whileRunning_does ?_
  split
  · exact .of_modService _ (h _)
  · exact .refl s

theorem execHold_does (s t : State) (h : execHold s = .next t) : s.Does t := by
  unfold execHold at h
  cases h
  refine State.execute_does fun t => ?_
  split
  · exact (State.Does.refl t).modService _
  · rename_i free
    have held : t.Does (t.modBlocks Blocks.enterHold) := .onBlocks rfl rfl (.event (.hold _ (by simpa using free)))
    split
    · exact held.modService _
    · exact (State.Does.refl t).modService _

theorem execRelease_does (s t : State) (h : execRelease s = .next t) : s.Does t := by
  unfold execRelease at h
  cases h
  refine State.execute_does fun t => ?_
  have released : t.Does (t.modBlocks Blocks.leaveHold) := .onBlocks rfl rfl (.event (.release _))
  split
  · exact released.modService _
  · exact (State.Does.refl t).modService _

/-! ## Resets -/

theorem State.cutAccessForReset_spec (s : State) :
    (∃ n, s.cutAccessForReset.blocks = { s.blocks with draws := n }) ∧
      (Memory.wf s.ram = true → Memory.wf s.cutAccessForReset.ram = true) := by
  unfold State.cutAccessForReset
  split
  · split
    · refine ⟨⟨s.blocks.draws + 1, ?_⟩, fun w => ?_⟩
      · unfold State.pokeBytes; split <;> rfl
      · exact (State.pokeBytes_pathRel s _ _).ram w
    · exact ⟨⟨_, rfl⟩, id⟩
  · exact ⟨⟨_, rfl⟩, id⟩

theorem State.beginReset_spec (s : State) (next : Phase) :
    (s.beginReset next).phase = next ∧
      (∃ n, (s.beginReset next).blocks = Blocks.deEnergise { s.blocks with draws := n }) ∧
      (Memory.wf s.ram = true → Memory.wf (s.beginReset next).ram = true) := by
  obtain ⟨⟨n, drawn⟩, ram⟩ := s.cutAccessForReset_spec
  refine ⟨rfl, ?_, fun w => ?_⟩
  · unfold State.beginReset State.cutWriteForReset
    dsimp only
    rw [drawn]
    split
    · exact ⟨n + 1, rfl⟩
    · exact ⟨n, by rw [drawn]⟩
  · have kept : (s.beginReset next).ram = s.cutAccessForReset.ram := by
      unfold State.beginReset State.cutWriteForReset
      dsimp only
      split <;> rfl
    rw [kept]
    exact ram w

theorem State.beginReset_does (s : State) {next : Phase} (h : next ≠ .running) : s.Does (s.beginReset next) :=
  ⟨.stops h (.inr (s.beginReset_spec next).2.1), (s.beginReset_spec next).2.2⟩

/-! ## All commands -/

/-- Every command, by its class. -/
theorem exec_does {c : Instr} {s t : State} (h : exec c s = .next t) : s.Does t := by
  cases c
  case tachPulse p => exact execTachPulse_does p s t h
  case electrodeSample p v => exact execElectrodeSample_does p v s t h
  case debouncedChange i high => exact execDebouncedChange_does i high s t h
  case zeroCrossing peak => exact execZeroCrossing_does peak s t h
  case temperatureSample ch raw => exact execTemperatureSample_does ch raw s t h
  case hold => exact execHold_does s t h
  case release => exact execRelease_does s t h
  all_goals cases h
  -- the memory path
  case storeFrame => exact (s.whilePowered_pathRel _ (s.passStore_pathRel _ _ _)).does
  case keepalive => exact (s.whilePowered_pathRel _ (s.passStore_pathRel _ _ _)).does
  case start p seq => exact (s.commitAction_pathRel p seq _).does
  case pause p seq => exact (s.commitAction_pathRel p seq _).does
  case resume p seq => exact (s.commitAction_pathRel p seq _).does
  case advance p seq => exact (s.commitAction_pathRel p seq _).does
  case abort p seq => exact (s.commitAction_pathRel p seq _).does
  case clear p seq => exact (s.commitAction_pathRel p seq _).does
  case alertAck | faultListClear =>
    exact (s.whilePowered_pathRel _ ((s.passStore_pathRel _ _ _).trans (State.passStore_pathRel _ _ _ _))).does
  case fetchFrame => exact (s.whilePowered_pathRel _ (s.passFetch_pathRel _ _ _)).does
  case opaqueFrame => exact (s.whilePowered_pathRel _ (s.passFrame_pathRel _ _ _)).does
  case shortFrame => exact (s.whilePowered_pathRel _ (s.passOpaque_pathRel _ _ _)).does
  case serviceAccessStart =>
    refine (s.whileRunning_pathRel _ ?_).does
    split
    · split <;> exact .of_same rfl rfl rfl
    · exact .refl s
  case serviceAccessComplete =>
    refine (s.whileRunning_pathRel _ ?_).does
    split
    · split
      · exact s.finishAccess_pathRel _
      · exact .refl s
    · exact .refl s
  case linkBusy =>
    refine (s.whileRunning_pathRel _ ?_).does
    split
    · split
      · exact s.endAccess_pathRel _ _ _ _
      · exact .refl s
    · exact .refl s
  case serviceAccessCollided =>
    exact (s.whilePowered_pathRel _ ((s.assertSelect_pathRel _).trans (State.passFrame_pathRel _ _ _ _))).does
  -- resets
  case powerOnReset => exact s.beginReset_does (by simp)
  case powerFail => exact s.beginReset_does (by simp)
  case pinReset =>
    split
    · exact .refl s
    · exact ⟨.stops (by simp [(s.beginReset_spec .pinHeld).1]) (.inr (s.beginReset_spec .pinHeld).2.1),
        (s.beginReset_spec .pinHeld).2.2⟩
  case resetRelease =>
    split
    · exact ⟨.stops (by simp) (.inl rfl), id⟩
    · exact .refl s
  case serviceReset =>
    refine State.whileRunning_does ?_
    split
    · exact s.beginReset_does (by simp)
    · exact .refl s
  case startUpWaitEnd =>
    split
    · exact ⟨.starts rfl _ _ rfl, id⟩
    · exact .refl s
  -- timed events
  case timeLimitReached p => exact State.onBlocks_does fun _ => .timeLimit _ p
  case extensionEnd p => exact State.onBlocks_does fun due => .extensionEnd _ p (by simp_all)
  case coolTimeExpiry p => exact State.onBlocks_does fun due => .coolTime _ p (by simp_all)
  case creaseBurst p => exact State.onBlocks_does fun _ => .burst _ p
  case creaseGuardEnd p => exact State.onBlocks_does fun due => .guardEnd _ p (by simp_all)
  case freshnessExpiry p => exact State.onBlocks_does fun _ => .stale _ p
  case silenceExpiry p => exact State.onBlocks_does fun _ => .silence _ p
  case spinupFail p => exact State.onBlocks_does fun _ => .spinupFail _ p
  case runEnd p => exact State.onBlocks_does fun _ => .runEnd _ p
  case coastEnd p => exact State.onBlocks_does fun due => .coastEnd _ p (by simp_all)
  case noStop p => exact State.onBlocks_does fun due => .noStop _ p (by simp_all)
  case dwellEnd st => exact State.onBlocks_does fun due => .dwellEnd _ st (by simp_all)
  case startAllowanceEnd p => exact State.onBlocks_does fun _ => .allowanceEnd _ p
  case pacingTimerExpiry => exact State.onBlocks_does fun _ => .pacing _
  case notBeforeExpiry st => exact State.onBlocks_does fun _ => .notBefore _ st
  case mainsLost => exact State.onBlocks_does fun _ => .mainsLost _
  case chordQualify => exact State.onBlocks_does fun _ => .chord _
  -- the service line
  case sync | syncReply | lineError | gapTimeout | partToToolSlot =>
    refine (s.whileRunning_pathRel _ ?_).does
    repeat' split
    all_goals exact .of_same rfl rfl rfl
  case unknownCommand =>
    split
    · exact .refl s
    · exact (s.execute_pathRel _ _ fun t => t.modService_pathRel _).does
  case status => exact (s.execute_pathRel _ _ fun t => t.modService_pathRel _).does
  case peek target n =>
    refine (s.execute_pathRel _ _ fun t => State.PathRel.trans (t.meetLink_pathRel target.busy) ?_).does
    dsimp only
    split
    · exact State.submitAccess_pathRel _ _
    · exact State.modService_pathRel _ _
  case poke target n data =>
    split
    · refine (s.execute_pathRel _ _ fun t => State.PathRel.trans (t.meetLink_pathRel target.busy) ?_).does
      dsimp only
      split
      · exact State.submitAccess_pathRel _ _
      · exact State.modService_pathRel _ _
    · exact .refl s
  case optRead =>
    refine (s.execute_pathRel _ _ fun t => ?_).does
    split
    · exact t.handOption_pathRel _
    · exact t.modService_pathRel _
  case optWrite =>
    split
    · refine (s.execute_pathRel _ _ fun t => ?_).does
      split
      · exact t.handOption_pathRel _
      · exact t.modService_pathRel _
    · exact .refl s
  case optWriteComplete =>
    refine (s.whileRunning_pathRel _ ?_).does
    split
    · unfold State.runHeldOption State.answerWrite
      split
      · refine State.PathRel.trans ?_ ((State.modService_pathRel _ _).trans (State.runOption_pathRel _ _))
        split <;> exact .of_same rfl rfl rfl
      · split <;> exact .of_same rfl rfl rfl
    · exact .refl s
  case forceAlert => exact State.execute_does fun t => .onBlocks rfl rfl (.quiet (.forced _ _))
  case resetPart => exact (s.execute_pathRel _ _ fun t => t.modService_pathRel _).does

/-! ## The step -/

theorem State.post_blocks (s : State) (events : List Instr) :
    ∃ n, (s.post events).blocks = { s.blocks with draws := n } := ⟨_, rfl⟩

/-- A step is a command's, or one clock cycle of a running part (log entry 3). -/
theorem step_does {s t : State} (h : step s = .next t) :
    s.Does t ∨ (s.phase = .running ∧ t.phase = .running ∧ t.ram = s.ram ∧
      ∃ n, t.blocks = { s.blocks.tick s.pins with draws := n }) := by
  unfold step at h
  split at h
  · cases h
    unfold State.tick
    split
    · exact .inl (.refl s)
    · exact .inl (.refl s)
    · split
      · exact .inl ⟨.stops (by simp) (.inl rfl), id⟩
      · exact .inl (.onBlocks rfl rfl (.quiet (.draws _ _)))
    · rename_i run
      exact .inr ⟨run, run, rfl, State.post_blocks _ _⟩
  · left
    obtain ⟨turns, ram⟩ := exec_does h
    refine ⟨?_, ram⟩
    cases turns with
    | goesOn phase blocks => exact .goesOn phase blocks
    | stops phase blocks => exact .stops phase blocks
    | starts phase row k blocks => exact .starts phase row k blocks

/-- Settles O3: the RAM changes by writes alone, each of which keeps the canonical form. -/
theorem everyStepKeepsRamCanonical : Obligations.EveryStepKeepsRamCanonical := by
  intro s t canonical stepped
  obtain does | ⟨-, -, ram, -⟩ := step_does stepped
  · exact does.ram canonical
  · rwa [ram]

end Sys2Proof.Machine
end

section
/-! SUPPORT. What the pocket sequencer and the drum drive leave alone, one lemma for each of their shared operations: every
item but a pocket's cycle and drum, the start allowances, the chord and the alert controller; and of those, the law of the
fault list and the direction of a drum whose motor is on (R52, R156). -/

namespace Sys2Proof.Machine

/-! ## The fault list (R156) -/

/-- The list holds at most sixteen entries with consecutive serials (R156). -/
def Alerts.Lawful (a : Alerts) : Prop := a.faults.length ≤ 16 ∧ serialsFollow a.nextSerial a.faults

theorem serialsFollow_tail {next : Byte} {e : FaultEntry} {l : List FaultEntry} (h : serialsFollow next (e :: l)) :
    serialsFollow next l := by
  cases l with
  | nil => trivial
  | cons f rest => exact h.2

theorem serialsFollow_drop {next : Byte} {l : List FaultEntry} (h : serialsFollow next l) (n : Nat) :
    serialsFollow next (l.drop n) := by
  induction n generalizing l with
  | zero => exact h
  | succ n ih =>
    cases l with
    | nil => exact h
    | cons e rest => exact ih (serialsFollow_tail h)

theorem serialsFollow_append {next : Byte} {l : List FaultEntry} (h : serialsFollow next l) {e : FaultEntry}
    (serial : e.serial = next) : serialsFollow (next + 1) (l ++ [e]) := by
  induction l with
  | nil => simp [serialsFollow, serial]
  | cons f rest ih =>
    cases rest with
    | nil => exact ⟨serial.trans h, by simp [serialsFollow, serial]⟩
    | cons g more => exact ⟨h.1, ih h.2⟩

theorem appendEntry_length {faults : List FaultEntry} (e : FaultEntry) : (appendEntry faults e).length ≤ 16 := by
  simp only [appendEntry, List.length_append, List.length_drop, List.length_singleton]
  omega

theorem Blocks.makePending_lawful (b : Blocks) (k : Cause) (h : b.alerts.Lawful) : (b.makePending k).alerts.Lawful := by
  unfold Blocks.makePending
  split
  · exact h
  · split
    · exact ⟨appendEntry_length _, serialsFollow_append (serialsFollow_drop h.2 _) rfl⟩
    · exact h

/-! ## The direction of a drum (R52) -/

/-- The motor is on with DIR as given, or has gone off in this very event. -/
def Drum.Bound (dir : Direction) (d : Drum) : Prop :=
  d.dir = dir ∧ (d.motorOn = true ∨ (d.state = .coast ∧ d.coastTimer = 0))

theorem Drum.bound_of_motorOn {d : Drum} (h : d.motorOn = true) : d.Bound d.dir := ⟨rfl, .inl h⟩

theorem Drum.bound_toCoast {dir : Direction} {d : Drum} (h : d.Bound dir) : d.toCoast.Bound dir := ⟨h.1, .inr ⟨rfl, rfl⟩⟩

theorem Drum.bound_stopRequest {dir : Direction} {d : Drum} (h : d.Bound dir) : d.stopRequest.Bound dir := by
  unfold Drum.stopRequest Drum.motorOff
  split
  · exact (Drum.bound_toCoast h : d.toCoast.Bound dir)
  · exact h

theorem Drum.not_bound_of_stopped {dir : Direction} {d : Drum} (h : d.state = .stopped) : ¬d.Bound dir := by
  rintro ⟨-, on | coast⟩
  · simp [Drum.motorOn, h] at on
  · simp [h] at coast

/-- A drum that coasts with its pause passed has not gone off in this very event. -/
theorem Drum.not_bound_of_coasted {dir : Direction} {d : Drum} (coast : d.state = .coast) (passed : d.coastTimer ≠ 0) :
    ¬d.Bound dir := by
  rintro ⟨-, on | ⟨-, zero⟩⟩
  · simp [Drum.motorOn, coast] at on
  · exact passed zero

theorem Drum.bound_pulse {dir : Direction} {d : Drum} (now : Nat) (h : d.Bound dir) : (d.pulse now).Bound dir := by
  unfold Drum.pulse
  dsimp only
  split <;> exact h

/-! ## The frame of the sequencer and the drum drive -/

/-- What the operations of the sequencer and of the drum drive leave alone; in the pockets of `P` a motor that is on keeps
its direction. -/
structure Blocks.SeqFrame (P : Pocket → Prop) (b c : Blocks) : Prop where
  working : c.working = b.working
  optionState : c.optionState = b.optionState
  held : c.held = b.held
  clock : c.clock = b.clock
  inlet : c.inlet = b.inlet
  inputs : c.contacts.inputs = b.contacts.inputs
  load : ∃ x y, c.load = { b.load with allowanceA := x, allowanceB := y }
  pocket : ∀ p, ∃ cycle drum, c.pocket p = { b.pocket p with cycle := cycle, drum := drum }
  alerts : b.alerts.Lawful → c.alerts.Lawful
  drum : ∀ p, P p → ∀ dir, (b.pocket p).drum.Bound dir → (c.pocket p).drum.Bound dir

section

variable {P : Pocket → Prop}

theorem Blocks.SeqFrame.refl (b : Blocks) : b.SeqFrame P b :=
  ⟨rfl, rfl, rfl, rfl, rfl, rfl, ⟨_, _, rfl⟩, fun _ => ⟨_, _, rfl⟩, id, fun _ _ _ => id⟩

theorem Blocks.SeqFrame.trans {b c d : Blocks} (h : b.SeqFrame P c) (k : c.SeqFrame P d) : b.SeqFrame P d where
  working := k.working.trans h.working
  optionState := k.optionState.trans h.optionState
  held := k.held.trans h.held
  clock := k.clock.trans h.clock
  inlet := k.inlet.trans h.inlet
  inputs := k.inputs.trans h.inputs
  load := by
    obtain ⟨_, _, h⟩ := h.load
    obtain ⟨x, y, k⟩ := k.load
    exact ⟨x, y, by rw [k, h]⟩
  pocket p := by
    obtain ⟨_, _, h⟩ := h.pocket p
    obtain ⟨cycle, drum, k⟩ := k.pocket p
    exact ⟨cycle, drum, by rw [k, h]⟩
  alerts := k.alerts ∘ h.alerts
  drum p hp dir := k.drum p hp dir ∘ h.drum p hp dir

theorem Blocks.SeqFrame.tuning {b c : Blocks} (h : b.SeqFrame P c) (p : Pocket) :
    (c.pocket p).tuning = (b.pocket p).tuning := by
  obtain ⟨_, _, h⟩ := h.pocket p
  rw [h]

theorem Blocks.SeqFrame.dryness {b c : Blocks} (h : b.SeqFrame P c) (p : Pocket) :
    (c.pocket p).dryness = (b.pocket p).dryness := by
  obtain ⟨_, _, h⟩ := h.pocket p
  rw [h]

theorem Blocks.SeqFrame.exhaust {b c : Blocks} (h : b.SeqFrame P c) (p : Pocket) :
    (c.pocket p).exhaust = (b.pocket p).exhaust := by
  obtain ⟨_, _, h⟩ := h.pocket p
  rw [h]

theorem Blocks.SeqFrame.stages {b c : Blocks} (h : b.SeqFrame P c) (p : Pocket) :
    (c.pocket p).stage1 = (b.pocket p).stage1 ∧ (c.pocket p).stage2 = (b.pocket p).stage2 := by
  obtain ⟨_, _, h⟩ := h.pocket p
  rw [h]
  exact ⟨rfl, rfl⟩

theorem Blocks.SeqFrame.sameLists {b c : Blocks} (h : b.SeqFrame P c) : b.SameLists c := by
  obtain ⟨_, _, load⟩ := h.load
  exact Blocks.sameLists_of_eq (h.stages .a).1 (h.stages .a).2 (h.stages .b).1 (h.stages .b).2 (by rw [load]) (by rw [load])

/-! ### Primitive changes -/

theorem Blocks.modPocket_frame (b : Blocks) (p : Pocket) {f : PocketUnit → PocketUnit}
    (rest : ∀ u, ∃ cycle drum, f u = { u with cycle := cycle, drum := drum })
    (drum : P p → ∀ dir, (b.pocket p).drum.Bound dir → (f (b.pocket p)).drum.Bound dir) :
    b.SeqFrame P (b.modPocket p f) where
  working := b.modPocket_working p f
  optionState := b.modPocket_optionState p f
  held := b.modPocket_held p f
  clock := b.modPocket_clock p f
  inlet := b.modPocket_inlet p f
  inputs := by rw [b.modPocket_contacts]
  load := ⟨_, _, b.modPocket_load p f⟩
  pocket q := by
    by_cases e : q = p
    · rw [e, b.modPocket_pocket]; exact rest _
    · rw [b.modPocket_pocket_of_ne e]; exact ⟨_, _, rfl⟩
  alerts := by rw [b.modPocket_alerts]; exact id
  drum q hq dir bound := by
    by_cases e : q = p
    · subst e; rw [b.modPocket_pocket]; exact drum hq dir bound
    · rwa [b.modPocket_pocket_of_ne e]

theorem Blocks.modCycle_frame (b : Blocks) (p : Pocket) (f : Cycle → Cycle) : b.SeqFrame P (b.modCycle p f) :=
  b.modPocket_frame p (fun _ => ⟨_, _, rfl⟩) fun _ _ => id

theorem Blocks.modDrum_frame (b : Blocks) (p : Pocket) {f : Drum → Drum}
    (drum : ∀ dir d, d.Bound dir → (f d).Bound dir) : b.SeqFrame P (b.modDrum p f) :=
  b.modPocket_frame p (fun _ => ⟨_, _, rfl⟩) fun _ dir => drum dir _

/-- A drum whose motor was off before the event may change as it likes. -/
theorem Blocks.modDrum_frame_of_off (b : Blocks) (p : Pocket) (f : Drum → Drum)
    (off : P p → ∀ dir, ¬(b.pocket p).drum.Bound dir) : b.SeqFrame P (b.modDrum p f) :=
  b.modPocket_frame p (fun _ => ⟨_, _, rfl⟩) fun hp dir bound => absurd bound (off hp dir)

theorem Blocks.makePending_frame (b : Blocks) (k : Cause) : b.SeqFrame P (b.makePending k) := by
  have lawful := b.makePending_lawful k
  rw [b.makePending_alerts k] at lawful ⊢
  refine ⟨rfl, rfl, rfl, rfl, rfl, rfl, ⟨_, _, rfl⟩, fun p => ?_, lawful, fun p _ dir => ?_⟩
  · cases p <;> exact ⟨_, _, rfl⟩
  · cases p <;> exact id

theorem Blocks.raiseCause_frame (b : Blocks) (k : Cause) : b.SeqFrame P (b.raiseCause k) := b.makePending_frame k

theorem Blocks.beginAllowance_frame (b : Blocks) (p : Pocket) : b.SeqFrame P (b.beginAllowance p) := by
  refine ⟨rfl, rfl, rfl, rfl, rfl, rfl, ?_, fun q => ?_, id, fun q _ dir => ?_⟩
  · cases p <;> exact ⟨_, _, rfl⟩
  · cases q <;> exact ⟨_, _, rfl⟩
  · cases q <;> exact id

/-! ### Stop requests, lockouts, drum faults (R41 to R43, R56, R63) -/

theorem Blocks.stopDrum_frame (b : Blocks) (p : Pocket) : b.SeqFrame P (b.stopDrum p) :=
  b.modDrum_frame p fun _ _ => Drum.bound_stopRequest

theorem Blocks.goFaulted_frame (b : Blocks) (p : Pocket) : b.SeqFrame P (b.goFaulted p) :=
  (b.modCycle_frame p _).trans (Blocks.stopDrum_frame _ p)

theorem Blocks.lockoutFault_frame (b : Blocks) (p : Pocket) (k : Lockout) : b.SeqFrame P (b.lockoutFault p k) := by
  unfold Blocks.lockoutFault
  split
  · exact .refl b
  · split
    case h_1 | h_2 | h_3 | h_4 => exact b.modCycle_frame p _
    case h_5 | h_6 => exact (b.modCycle_frame p _).trans (Blocks.goFaulted_frame _ p)
    all_goals exact .refl b

theorem Blocks.entryLockout_frame (b : Blocks) (p : Pocket) : b.SeqFrame P (b.entryLockout p) := by
  have drawn : b.SeqFrame P { b with draws := b.draws + 1 } :=
    ⟨rfl, rfl, rfl, rfl, rfl, rfl, ⟨_, _, rfl⟩, fun p => by cases p <;> exact ⟨_, _, rfl⟩, id,
      fun p _ _ => by cases p <;> exact id⟩
  unfold Blocks.entryLockout
  split
  · exact .refl b
  · split
    · exact .refl b
    · exact b.lockoutFault_frame p _
    · exact drawn.trans (Blocks.lockoutFault_frame _ p _)

theorem Blocks.answerDrumFault_frame (b : Blocks) (p : Pocket) : b.SeqFrame P (b.answerDrumFault p) := by
  unfold Blocks.answerDrumFault
  split
  · exact b.modCycle_frame p _
  · exact b.modCycle_frame p _
  · exact (b.modCycle_frame p _).trans (Blocks.goFaulted_frame _ p)

theorem Blocks.drumFault_frame (b : Blocks) (p : Pocket) (k : DrumFault) : b.SeqFrame P (b.drumFault p k) := by
  unfold Blocks.drumFault
  refine ((b.modDrum_frame p ?_).trans (Blocks.raiseCause_frame _ _)).trans (Blocks.answerDrumFault_frame _ p)
  exact fun _ d bound => (Drum.bound_stopRequest bound : d.stopRequest.Bound _)

/-! ### Entries to the pocket states -/

theorem Blocks.enterCooling_frame (b : Blocks) (p : Pocket) (flag : Option EndFlag) : b.SeqFrame P (b.enterCooling p flag) :=
  (b.modCycle_frame p _).trans (Blocks.entryLockout_frame _ p)

theorem Blocks.pausePocket_frame (b : Blocks) (p : Pocket) : b.SeqFrame P (b.pausePocket p) := by
  unfold Blocks.pausePocket
  split
  · exact b.goFaulted_frame p
  · exact ((b.modCycle_frame p _).trans (Blocks.stopDrum_frame _ p)).trans (Blocks.entryLockout_frame _ p)

theorem Blocks.enterDone_frame (b : Blocks) (p : Pocket) : b.SeqFrame P (b.enterDone p) :=
  ((b.modCycle_frame p _).trans (Blocks.stopDrum_frame _ p)).trans (Blocks.raiseCause_frame _ _)

theorem Blocks.enterIdle_frame (b : Blocks) (p : Pocket) : b.SeqFrame P (b.enterIdle p) :=
  (b.modCycle_frame p _).trans (Blocks.stopDrum_frame _ p)

theorem Blocks.enterCreaseGuard_frame (b : Blocks) (p : Pocket) : b.SeqFrame P (b.enterCreaseGuard p) := by
  unfold Blocks.enterCreaseGuard
  refine (((b.modCycle_frame p _).trans (Blocks.stopDrum_frame _ p)).trans (Blocks.modDrum_frame _ p ?_)).trans
    (Blocks.entryLockout_frame _ p)
  exact fun _ _ bound => bound

theorem Blocks.coolEnd_frame (b : Blocks) (p : Pocket) : b.SeqFrame P (b.coolEnd p) := by
  unfold Blocks.coolEnd
  dsimp only
  split
  · exact b.goFaulted_frame p
  · split
    · exact b.enterIdle_frame p
    · split
      · exact b.enterCreaseGuard_frame p
      · exact b.enterDone_frame p

theorem Blocks.judgeTimeLimit_frame (b : Blocks) (p : Pocket) : b.SeqFrame P (b.judgeTimeLimit p) := by
  unfold Blocks.judgeTimeLimit
  dsimp only
  split
  · split
    · exact b.enterCooling_frame p _
    · exact b.enterCooling_frame p _
    · exact .refl b
  · exact .refl b

theorem Blocks.runReport_frame (b : Blocks) (p : Pocket) : b.SeqFrame P (b.runReport p) := by
  unfold Blocks.runReport
  dsimp only
  split
  · exact ((b.modCycle_frame p _).trans (Blocks.entryLockout_frame _ p)).trans (Blocks.judgeTimeLimit_frame _ p)
  · exact .refl b

theorem Blocks.dryReport_frame (b : Blocks) (p : Pocket) (e : Nat) : b.SeqFrame P (b.dryReport p e) := by
  unfold Blocks.dryReport
  dsimp only
  split
  · split
    · exact (b.modCycle_frame p _).trans (Blocks.enterCooling_frame _ p _)
    · exact (b.modCycle_frame p _).trans (Blocks.entryLockout_frame _ p)
  · exact .refl b

theorem Blocks.tangleReport_frame (b : Blocks) (p : Pocket) : b.SeqFrame P (b.tangleReport p) := by
  unfold Blocks.tangleReport
  split
  case h_4 => exact .refl b
  all_goals exact b.pausePocket_frame p

theorem Blocks.doorOpens_frame (b : Blocks) (p : Pocket) : b.SeqFrame P (b.doorOpens p) := by
  unfold Blocks.doorOpens
  split
  case h_1 | h_2 | h_3 | h_4 => exact b.pausePocket_frame p
  case h_5 | h_6 => exact b.enterIdle_frame p
  all_goals exact .refl b

theorem Blocks.lintRemoved_frame (b : Blocks) (p : Pocket) : b.SeqFrame P (b.lintRemoved p) := by
  unfold Blocks.lintRemoved
  split
  case h_5 => exact .refl b
  all_goals exact b.pausePocket_frame p

theorem Blocks.reloadFreshness_frame (b : Blocks) (p : Pocket) : b.SeqFrame P (b.reloadFreshness p) :=
  b.modCycle_frame p _

/-! ### The chord (R49, R147) -/

theorem Blocks.panelStopPocket_frame (b : Blocks) (p : Pocket) : b.SeqFrame P (b.panelStopPocket p) := by
  have stop : b.SeqFrame P (if (b.pocket p).cycle.lockout.isSome then b.goFaulted p else b.enterIdle p) := by
    split
    · exact b.goFaulted_frame p
    · exact b.enterIdle_frame p
  unfold Blocks.panelStopPocket
  split
  case h_1 | h_2 | h_3 | h_4 | h_5 | h_6 => exact stop
  all_goals exact .refl b

theorem Blocks.panelStop_frame (b : Blocks) : b.SeqFrame P b.panelStop := by
  have spent : b.SeqFrame P { b with contacts := { b.contacts with chord := .spent } } :=
    ⟨rfl, rfl, rfl, rfl, rfl, rfl, ⟨_, _, rfl⟩, fun p => by cases p <;> exact ⟨_, _, rfl⟩, id,
      fun p _ _ => by cases p <;> exact id⟩
  exact (spent.trans (Blocks.panelStopPocket_frame _ .a)).trans (Blocks.panelStopPocket_frame _ .b)

theorem Blocks.judgeChord_frame (b : Blocks) : b.SeqFrame P b.judgeChord := by
  unfold Blocks.judgeChord
  split
  · exact b.panelStop_frame
  · exact .refl b

/-! ### Spin-up, runs and coasts (R56 to R67) -/

theorem Blocks.trySpinUp_frame (b : Blocks) (p : Pocket) : b.SeqFrame P (b.trySpinUp p) := by
  unfold Blocks.trySpinUp
  dsimp only
  split
  case isTrue stands =>
    split
    · exact b.drumFault_frame p _
    · exact (b.modDrum_frame_of_off p _ fun _ _ => Drum.not_bound_of_stopped stands.1).trans
        (Blocks.beginAllowance_frame _ p)
  case isFalse => exact .refl b

theorem Blocks.runRequest_frame (b : Blocks) (p : Pocket) : b.SeqFrame P (b.runRequest p) := by
  unfold Blocks.runRequest
  refine (b.modDrum_frame p ?_).trans (Blocks.trySpinUp_frame _ p)
  exact fun _ _ bound => bound

theorem Blocks.burstRequest_frame (b : Blocks) (p : Pocket) : b.SeqFrame P (b.burstRequest p) := by
  unfold Blocks.burstRequest
  refine (b.modDrum_frame p ?_).trans (Blocks.trySpinUp_frame _ p)
  exact fun _ _ bound => bound

theorem Blocks.judgeRunEnd_frame (b : Blocks) (p : Pocket) : b.SeqFrame P (b.judgeRunEnd p) := by
  unfold Blocks.judgeRunEnd
  dsimp only
  split
  · split
    · exact b.modDrum_frame p fun _ d bound => (⟨bound.1, .inr ⟨rfl, rfl⟩⟩ : (d.endRun _).Bound _)
    · exact .refl b
  · exact .refl b

theorem Blocks.enterStopped_frame (b : Blocks) (p : Pocket) (off : P p → ∀ dir, ¬(b.pocket p).drum.Bound dir) :
    b.SeqFrame P (b.enterStopped p) :=
  ((b.modDrum_frame_of_off p _ off).trans (Blocks.judgeChord_frame _)).trans (Blocks.trySpinUp_frame _ p)

/-- A COAST that has just begun ends in the same event only with a PAUSE of 0. -/
theorem Blocks.judgeCoast_frame (b : Blocks) (p : Pocket) (pause : P p → 0 < (b.pocket p).tuning.pause) :
    b.SeqFrame P (b.judgeCoast p) := by
  unfold Blocks.judgeCoast
  dsimp only
  split
  case isTrue ended =>
    exact b.enterStopped_frame p fun hp dir => Drum.not_bound_of_coasted ended.1 (by have := pause hp; omega)
  case isFalse => exact .refl b

theorem Blocks.tangleEvent_frame (b : Blocks) (p : Pocket) : b.SeqFrame P (b.tangleEvent p) := by
  unfold Blocks.tangleEvent
  dsimp only
  have tangled : b.SeqFrame P (b.modPocket p fun u =>
      { u with drum := { u.drum.endRun u.tuning with tangles := min 4 (u.drum.tangles + 1), drag := 0 } }) :=
    b.modPocket_frame p (fun u => ⟨u.cycle, _, rfl⟩) fun _ _ bound => ⟨bound.1, .inr ⟨rfl, rfl⟩⟩
  split
  · exact (tangled.trans (Blocks.raiseCause_frame _ _)).trans (Blocks.tangleReport_frame _ p)
  · exact tangled

theorem Blocks.judgeDrag_frame (b : Blocks) (p : Pocket) : b.SeqFrame P (b.judgeDrag p) := by
  unfold Blocks.judgeDrag
  dsimp only
  split
  · split
    · exact b.tangleEvent_frame p
    · exact b.modDrum_frame p fun _ _ => id
  · exact b.modDrum_frame p fun _ _ => id

theorem Blocks.enterRun_frame (b : Blocks) (p : Pocket) : b.SeqFrame P (b.enterRun p) := by
  have run : b.SeqFrame P (b.modDrum p fun d => { d with state := .run, runTimer := 0, drag := 0 }) :=
    b.modPocket_frame p (fun u => ⟨u.cycle, _, rfl⟩) fun _ _ bound => ⟨bound.1, .inl rfl⟩
  unfold Blocks.enterRun
  dsimp only
  split
  · exact (run.trans (Blocks.runReport_frame _ p)).trans (Blocks.judgeRunEnd_frame _ p)
  · exact run.trans (Blocks.judgeRunEnd_frame _ p)

theorem Blocks.judgePulse_frame (b : Blocks) (p : Pocket) : b.SeqFrame P (b.judgePulse p) := by
  unfold Blocks.judgePulse
  dsimp only
  split
  · split
    · exact b.enterRun_frame p
    · exact .refl b
  · exact b.judgeDrag_frame p
  · exact .refl b
  · exact .refl b

theorem Blocks.pulse_frame (b : Blocks) (p : Pocket) : b.SeqFrame P (b.pulse p) := by
  have seen : b.SeqFrame P (b.modDrum p (Drum.pulse b.clock)) := b.modDrum_frame p fun _ _ => Drum.bound_pulse _
  unfold Blocks.pulse
  dsimp only
  split
  · exact seen.trans (Blocks.judgePulse_frame _ p)
  · exact seen

/-! ### Answers to actions (R21 to R27) -/

theorem Blocks.answerCode_frame (b : Blocks) (p : Pocket) (code : Nat) (action : ∀ a, b.SeqFrame P (b.answerAction p a).2) :
    b.SeqFrame P (b.answerCode p code).2 := by
  unfold Blocks.answerCode
  split
  · exact .refl b
  · split
    · exact .refl b
    · split
      · exact .refl b
      · exact action _

theorem Blocks.answerPause_frame (b : Blocks) (p : Pocket) : b.SeqFrame P (b.answerPause p).2 := by
  unfold Blocks.answerPause
  split
  · exact b.pausePocket_frame p
  · exact .refl b

theorem Blocks.answerResume_frame (b : Blocks) (p : Pocket) : b.SeqFrame P (b.answerResume p).2 := by
  unfold Blocks.answerResume
  split
  · exact (b.modCycle_frame p _).trans (Blocks.runRequest_frame _ p)
  · exact .refl b

theorem Blocks.answerAdvance_frame (b : Blocks) (p : Pocket) : b.SeqFrame P (b.answerAdvance p).2 := by
  unfold Blocks.answerAdvance
  split
  · exact b.enterCooling_frame p _
  · exact .refl b

theorem Blocks.answerAbort_frame (b : Blocks) (p : Pocket) : b.SeqFrame P (b.answerAbort p).2 := by
  unfold Blocks.answerAbort
  split
  case h_1 | h_2 | h_3 => exact b.enterCooling_frame p _
  case h_4 => dsimp only; exact b.modCycle_frame p _
  case h_5 | h_6 => exact (b.modCycle_frame p _).trans (Blocks.enterIdle_frame _ p)
  all_goals exact .refl b

theorem Blocks.answerClear_frame (b : Blocks) (p : Pocket) : b.SeqFrame P (b.answerClear p).2 := by
  unfold Blocks.answerClear
  dsimp only
  split
  · dsimp only; exact b.modCycle_frame p _
  · split
    · split
      · dsimp only; exact b.modCycle_frame p _
      · exact .refl b
    · dsimp only; exact b.modCycle_frame p _
  · exact .refl b

end

end Sys2Proof.Machine
end

section
/-! SUPPORT. What every event keeps before its end and at it: the lists' agreement with the stages, the law of the fault
list, the ranges of the dryness units, and the direction of a drum whose motor is on (R52, R88, R100, R121, R130, R156). -/

namespace Sys2Proof.Machine

/-! ## The range of a field taken (R29, R72, R85, R131) -/

/-- A field brought into effect has the new value, and every other one its own. -/
theorem Tuning.get_set (t : Tuning) (f g : PocketField) (v : Nat) :
    (t.set f v).get g = if g = f then v else t.get g := by
  cases f <;> cases g <;> rfl

/-- A field judged is left as it is, or taken with a value of its range. -/
theorem judgeField_cases (c : Cycle) (st : Staging) (j : Judged) (f : PocketField) :
    ((judgeField c st j f).tuning = j.tuning ∧ (judgeField c st j f).taken = j.taken) ∨
      ∃ v, f.range.1 ≤ v ∧ v ≤ f.range.2 ∧ (judgeField c st j f).tuning = j.tuning.set f v ∧
        (judgeField c st j f).taken = f :: j.taken := by
  have ordered : f.range.1 ≤ f.range.2 := by cases f <;> decide
  have code : f.isCode = true → f.range.1 = 0 := by cases f <;> decide
  unfold judgeField
  split
  · exact .inl ⟨rfl, rfl⟩
  · exact .inl ⟨rfl, rfl⟩
  · dsimp only
    split
    case isTrue isCode =>
      split
      case isTrue ok => exact .inr ⟨_, by rw [code isCode]; exact Nat.zero_le _, ok.1, rfl, rfl⟩
      case isFalse => exact .inl ⟨rfl, rfl⟩
    case isFalse =>
      split
      case isTrue => exact .inr ⟨_, by unfold clampNat; split <;> [skip; split] <;> omega,
        by unfold clampNat; split <;> [skip; split] <;> omega, rfl, rfl⟩
      case isFalse inside => exact .inr ⟨_, by omega, by omega, rfl, rfl⟩

/-- Every field taken lies in its range (R29, R72, R85, R131). -/
def Judged.TakenInRange (j : Judged) : Prop :=
  ∀ f ∈ j.taken, f.range.1 ≤ j.tuning.get f ∧ j.tuning.get f ≤ f.range.2

theorem judgeField_takenInRange (c : Cycle) (st : Staging) {j : Judged} (f : PocketField) (h : j.TakenInRange) :
    (judgeField c st j f).TakenInRange := by
  obtain ⟨same, taken⟩ | ⟨v, low, high, set, taken⟩ := judgeField_cases c st j f
  · rw [Judged.TakenInRange, same, taken]
    exact h
  · rw [Judged.TakenInRange, set, taken]
    intro g hg
    rw [Tuning.get_set]
    split
    case isTrue e => subst e; exact ⟨low, high⟩
    case isFalse ne => exact h g ((List.mem_cons.1 hg).resolve_left ne)

theorem judgeFields_takenInRange (u : PocketUnit) (st : Staging) : (judgeFields u st).TakenInRange :=
  List.foldlRecOn pocketFields (motive := Judged.TakenInRange) _ (fun _ h => absurd h List.not_mem_nil)
    fun _ h f _ => judgeField_takenInRange u.cycle st f h

theorem judgeFields_filterWeight (u : PocketUnit) (st : Staging) (weight : u.tuning.filterWeight ≤ 64) :
    (judgeFields u st).tuning.filterWeight ≤ 64 := by
  refine List.foldlRecOn pocketFields (motive := fun j : Judged => j.tuning.get .filterWeight ≤ 64) _ weight
    fun j h f _ => ?_
  obtain ⟨same, -⟩ | ⟨v, -, high, set, -⟩ := judgeField_cases u.cycle st j f
  · rw [same]
    exact h
  · rw [set, Tuning.get_set]
    split
    case isTrue e => subst e; exact high
    case isFalse => exact h

/-! ## What every event keeps -/

/-- The lists go on agreeing with the stages, the fault list and the dryness units keep their laws, and in the pockets of
`P` a motor that is on keeps its direction. -/
structure Blocks.Keeps (P : Pocket → Prop) (b c : Blocks) : Prop where
  lists : b.ListsAgree → c.ListsAgree
  alerts : b.alerts.Lawful → c.alerts.Lawful
  dryness : ∀ p, (b.pocket p).dryness.Lawful (b.pocket p).tuning → (c.pocket p).dryness.Lawful (c.pocket p).tuning
  drum : ∀ p, P p → ∀ dir, (b.pocket p).drum.Bound dir → (c.pocket p).drum.Bound dir

section

variable {P : Pocket → Prop}

theorem Blocks.Keeps.refl (b : Blocks) : b.Keeps P b := ⟨id, id, fun _ => id, fun _ _ _ => id⟩

theorem Blocks.Keeps.trans {b c d : Blocks} (h : b.Keeps P c) (k : c.Keeps P d) : b.Keeps P d :=
  ⟨k.lists ∘ h.lists, k.alerts ∘ h.alerts, fun p => k.dryness p ∘ h.dryness p,
    fun p hp dir => k.drum p hp dir ∘ h.drum p hp dir⟩

theorem Blocks.SeqFrame.keeps {b c : Blocks} (h : b.SeqFrame P c) : b.Keeps P c :=
  ⟨h.sameLists.listsAgree, h.alerts, fun p => by rw [h.tuning, h.dryness]; exact id, h.drum⟩

/-- A change that leaves alerts and pockets alone, but for the pockets' temperatures, wants and permissions. -/
theorem Blocks.SameLists.keeps {b c : Blocks} (lists : b.SameLists c) (alerts : c.alerts = b.alerts)
    (pocket : ∀ p, (c.pocket p).drum = (b.pocket p).drum ∧ (c.pocket p).tuning = (b.pocket p).tuning ∧
      (c.pocket p).dryness = (b.pocket p).dryness) : b.Keeps P c :=
  ⟨lists.listsAgree, alerts ▸ id, fun p => by rw [(pocket p).2.1, (pocket p).2.2]; exact id,
    fun p _ dir => by rw [(pocket p).1]; exact id⟩

theorem Blocks.modPocket_keeps (b : Blocks) (p : Pocket) {f : PocketUnit → PocketUnit}
    (stages : ∀ u, (f u).stage1 = u.stage1 ∧ (f u).stage2 = u.stage2)
    (dryness : (b.pocket p).dryness.Lawful (b.pocket p).tuning →
      (f (b.pocket p)).dryness.Lawful (f (b.pocket p)).tuning)
    (drum : ∀ dir, (b.pocket p).drum.Bound dir → (f (b.pocket p)).drum.Bound dir) : b.Keeps P (b.modPocket p f) := by
  refine ⟨(b.modPocket_sameLists p f stages).listsAgree, by rw [b.modPocket_alerts]; exact id, fun q => ?_,
    fun q _ dir => ?_⟩
  all_goals
    by_cases e : q = p
    · subst e; rw [b.modPocket_pocket]; solve_by_elim
    · rw [b.modPocket_pocket_of_ne e]; exact id

/-- A change of a dryness unit within its law. -/
theorem Blocks.modDryness_keeps (b : Blocks) (p : Pocket) {f : Dryness → Dryness}
    (h : ∀ t, (b.pocket p).dryness.Lawful t → (f (b.pocket p).dryness).Lawful t) : b.Keeps P (b.modDryness p f) := by
  unfold Blocks.modDryness
  exact b.modPocket_keeps p (fun _ => ⟨rfl, rfl⟩) (h _) fun _ => id

theorem Blocks.evaluateWants_keeps (b : Blocks) (p : Pocket) : b.Keeps P (b.evaluateWants p) := by
  refine (b.evaluateWants_sameLists p).keeps (b.modPocket_alerts p _) fun q => ?_
  by_cases e : q = p
  · subst e
    rw [Blocks.evaluateWants, b.modPocket_pocket]
    unfold PocketUnit.evaluateWants
    split <;> exact ⟨rfl, rfl, rfl⟩
  · rw [Blocks.evaluateWants, b.modPocket_pocket_of_ne e]
    exact ⟨rfl, rfl, rfl⟩

theorem Blocks.modChannel_keeps (b : Blocks) (ch : Sensor) (f : Channel → Channel) : b.Keeps P (b.modChannel ch f) := by
  cases ch with
  | exhaust p =>
    unfold Blocks.modChannel
    exact b.modPocket_keeps p (fun _ => ⟨rfl, rfl⟩) id fun _ => id
  | inlet => exact Blocks.SameLists.keeps (Blocks.SameLists.refl b) rfl fun p => by cases p <;> exact ⟨rfl, rfl, rfl⟩

theorem Blocks.modLoad_keeps (b : Blocks) (f : LoadShare → LoadShare)
    (h : ∀ l, (f l).grants = l.grants ∧ (f l).queue = l.queue) : b.Keeps P (b.modLoad f) :=
  (b.modLoad_sameLists f h).keeps rfl fun p => by cases p <;> exact ⟨rfl, rfl, rfl⟩

theorem Blocks.modMains_keeps (b : Blocks) (f : Mains → Mains) : b.Keeps P (b.modMains f) :=
  b.modLoad_keeps _ fun _ => ⟨rfl, rfl⟩

/-- Contacts, and the sets of the alert controller, are in none of the laws. -/
theorem Blocks.setContacts_keeps (b : Blocks) (c : Contacts) : b.Keeps P { b with contacts := c } :=
  Blocks.SameLists.keeps (Blocks.SameLists.refl b) rfl fun p => by cases p <;> exact ⟨rfl, rfl, rfl⟩

theorem Blocks.setAlerts_keeps (b : Blocks) (a : Alerts) (h : b.alerts.Lawful → a.Lawful) :
    b.Keeps P { b with alerts := a } :=
  ⟨(Blocks.SameLists.refl b).listsAgree, h, fun p => by cases p <;> exact id, fun p _ _ => by cases p <;> exact id⟩

theorem Blocks.present_keeps (b : Blocks) (k : Cause) : b.Keeps P (b.present k) := by
  unfold Blocks.present
  exact (b.setAlerts_keeps { b.alerts with presented := b.alerts.presented ||| k.bit } fun h => h).trans
    (Blocks.makePending_frame _ k).keeps

theorem Blocks.withdrawCause_keeps (b : Blocks) (k : Cause) : b.Keeps P (b.withdrawCause k) :=
  b.setAlerts_keeps _ fun h => h

/-! ## The end of an event -/

theorem Blocks.settle_pocket_apart (b : Blocks) (p : Pocket) :
    (b.settle.pocket p).apartFromHeat = (b.pocket p).apartFromHeat := by
  have same := congrArg (fun c : Blocks => c.pocket p) b.settle_apartFromHeat
  simpa only [Blocks.apartFromHeat_pocket] using same

theorem Blocks.settle_drum (b : Blocks) (p : Pocket) : (b.settle.pocket p).drum = (b.pocket p).drum := by
  have same := congrArg PocketUnit.drum (b.settle_pocket_apart p)
  exact same

theorem Blocks.settle_cycle (b : Blocks) (p : Pocket) : (b.settle.pocket p).cycle = (b.pocket p).cycle := by
  have same := congrArg PocketUnit.cycle (b.settle_pocket_apart p)
  exact same

theorem Blocks.settle_alerts (b : Blocks) : b.settle.alerts = b.alerts := by
  have same := congrArg Blocks.alerts b.settle_apartFromHeat
  exact same

theorem Blocks.settle_held (b : Blocks) : b.settle.held = b.held := by
  have same := congrArg Blocks.held b.settle_apartFromHeat
  exact same

theorem Blocks.settle_keeps (b : Blocks) : b.Keeps P b.settle where
  lists h := (b.settle_settled h).1
  alerts := by rw [b.settle_alerts]; exact id
  dryness p := by
    have same : ∀ u : PocketUnit, u.dryness.Lawful u.tuning ↔ u.apartFromHeat.dryness.Lawful u.apartFromHeat.tuning :=
      fun _ => Iff.rfl
    rw [same, same (b.settle.pocket p), b.settle_pocket_apart]
    exact id
  drum p _ dir := by rw [b.settle_drum]; exact id

/-! ## Takes (R8, R153) -/

theorem Blocks.judgeCoolingTake_frame (b : Blocks) (p : Pocket) (taken : List PocketField) :
    b.SeqFrame P (b.judgeCoolingTake p taken) := by
  unfold Blocks.judgeCoolingTake
  extract_lets u byTime byTemp
  split
  · exact b.coolEnd_frame p
  · exact .refl b

/-- What the delivered fields' owners compare, before the wants (R8). -/
theorem Blocks.deliver_frame (b : Blocks) (p : Pocket) (j : Judged) (pause : .pause ∈ j.taken → 0 < j.tuning.pause) :
    ∃ c, (b.modPocket p fun u => { u with tuning := j.tuning }).SeqFrame P c ∧
      b.deliver p j = if j.taken.any isHeatField then c.evaluateWants p else c := by
  refine ⟨_, ?_, rfl⟩
  obtain ⟨b₀, h₀⟩ : ∃ b₀, b₀ = b.modPocket p fun u => { u with tuning := j.tuning } := ⟨_, rfl⟩
  have tuned : (b₀.pocket p).tuning = j.tuning := by rw [h₀, b.modPocket_pocket]
  rw [← h₀]
  obtain ⟨b₁, h₁⟩ : ∃ b₁, b₁ = if j.taken.contains .timeLimit then b₀.judgeTimeLimit p else b₀ := ⟨_, rfl⟩
  have f₁ : b₀.SeqFrame P b₁ := by
    rw [h₁]; split
    · exact b₀.judgeTimeLimit_frame p
    · exact .refl b₀
  have f₂ := f₁.trans (b₁.judgeCoolingTake_frame (P := P) p j.taken)
  rw [← h₁]
  obtain ⟨b₃, h₃⟩ : ∃ b₃, b₃ = if (j.taken.contains .fwdRun || j.taken.contains .revRun) &&
      ((b₁.judgeCoolingTake p j.taken).pocket p).drum.request == .run then (b₁.judgeCoolingTake p j.taken).judgeRunEnd p
      else b₁.judgeCoolingTake p j.taken := ⟨_, rfl⟩
  have f₃ : b₀.SeqFrame P b₃ := by
    rw [h₃]; split
    · exact f₂.trans (Blocks.judgeRunEnd_frame _ p)
    · exact f₂
  rw [← h₃]
  split
  case isTrue taken =>
    refine f₃.trans (b₃.judgeCoast_frame p fun _ => ?_)
    rw [f₃.tuning, tuned]
    exact pause (by simpa using taken)
  case isFalse => exact f₃

theorem Blocks.deliver_keeps (b : Blocks) (p : Pocket) (st : Staging) :
    b.Keeps P (b.deliver p (judgeFields (b.pocket p) st)) := by
  obtain ⟨c, frame, delivered⟩ := b.deliver_frame (P := P) p (judgeFields (b.pocket p) st) fun taken =>
    Nat.lt_of_lt_of_le (by decide : 0 < PocketField.pause.range.1) (judgeFields_takenInRange _ st _ taken).1
  have tuned : b.Keeps P c := by
    refine Blocks.Keeps.trans ?_ frame.keeps
    refine b.modPocket_keeps p (fun _ => ⟨rfl, rfl⟩) (fun ⟨gated, hits, wetness, weight⟩ => ?_) fun _ => id
    exact ⟨gated, hits, wetness, judgeFields_filterWeight _ st weight⟩
  rw [delivered]
  split
  · exact tuned.trans (c.evaluateWants_keeps p)
  · exact tuned

theorem Blocks.answerStart_keeps (b : Blocks) (p : Pocket) : b.Keeps P (b.answerStart p).2 := by
  have started : b.Keeps P ((b.modPocket p (PocketUnit.startCycle b.freshSeconds)).runRequest p) :=
    (b.modPocket_keeps (f := PocketUnit.startCycle b.freshSeconds) p (fun _ => ⟨rfl, rfl⟩)
      (fun ⟨_, _, _, weight⟩ => ⟨Nat.zero_le _, Nat.le_refl _, Nat.le_refl _, weight⟩) fun _ => id).trans
      (Blocks.runRequest_frame _ p).keeps
  unfold Blocks.answerStart
  split
  case h_3 => exact .refl b
  all_goals
    split
    · exact started
    · exact .refl b

theorem Blocks.answerCode_keeps (b : Blocks) (p : Pocket) (code : Nat) : b.Keeps P (b.answerCode p code).2 := by
  unfold Blocks.answerCode
  split
  · exact .refl b
  · split
    · exact .refl b
    · split
      · exact .refl b
      · rename_i a _ _
        cases a with
        | start => exact b.answerStart_keeps p
        | pause => exact (b.answerPause_frame p).keeps
        | resume => exact (b.answerResume_frame p).keeps
        | advance => exact (b.answerAdvance_frame p).keeps
        | abort => exact (b.answerAbort_frame p).keeps
        | clear => exact (b.answerClear_frame p).keeps

theorem Blocks.raiseTake_frame (b : Blocks) (r : TakeResult) : b.SeqFrame P (b.raiseTake r) := by
  unfold Blocks.raiseTake
  split
  · exact b.raiseCause_frame _
  · exact .refl b

theorem Blocks.pocketTaken_keeps (b : Blocks) (p : Pocket) (st : Staging) (seq : Byte) :
    b.Keeps P (b.pocketTaken p st seq) := by
  unfold Blocks.pocketTaken
  dsimp only
  refine Blocks.Keeps.trans ?_ ((Blocks.reloadFreshness_frame _ p).trans (Blocks.raiseTake_frame _ _)).keeps
  split
  · exact (b.deliver_keeps p st).trans (Blocks.answerCode_keeps _ p _)
  · exact b.deliver_keeps p st

theorem Blocks.pendAgain_frame (acked : BitVec 16) (causes : List Cause) (b : Blocks) :
    b.SeqFrame P (Blocks.pendAgain acked causes b) := by
  induction causes generalizing b with
  | nil => exact .refl b
  | cons k rest ih =>
    unfold Blocks.pendAgain
    refine Blocks.SeqFrame.trans ?_ (ih _)
    split
    · exact b.makePending_frame k
    · exact .refl b

theorem Blocks.ackWhole_keeps (b : Blocks) (v : Option (BitVec 16)) : b.Keeps P (b.ackWhole v) := by
  cases v with
  | none => exact .refl b
  | some causes =>
    exact (b.setAlerts_keeps { b.alerts with
      pending := b.alerts.pending &&& ~~~causes, forced := b.alerts.forced &&& ~~~causes } fun h => h).trans
      (Blocks.pendAgain_frame _ _ _).keeps

theorem Blocks.commonTaken_keeps (b : Blocks) (j : CommonJudged) (r : TakeResult) : b.Keeps P (b.commonTaken j r) := by
  have enabled : b.Keeps P (b.setEnabled j.enable) := by
    unfold Blocks.setEnabled
    split
    · exact b.setAlerts_keeps _ fun h => h
    · exact .refl b
  have cleared : ∀ c : Blocks, c.Keeps P (c.clearFaults j.clearList) := fun c => by
    unfold Blocks.clearFaults
    split
    · exact c.setAlerts_keeps _ fun _ => ⟨Nat.zero_le _, trivial⟩
    · exact .refl c
  have supplied : ∀ c : Blocks, c.Keeps P (c.setSupply j.supply) := fun c => by
    unfold Blocks.setSupply
    split
    · exact c.modLoad_keeps _ fun _ => ⟨rfl, rfl⟩
    · exact .refl c
  exact (((enabled.trans (cleared _)).trans (Blocks.ackWhole_keeps _ _)).trans (supplied _)).trans
    (Blocks.raiseTake_frame _ r).keeps

theorem Blocks.Quiet.keeps {b c : Blocks} (h : b.Quiet c) : b.Keeps P c := by
  cases h with
  | draws n => exact Blocks.SameLists.keeps (Blocks.SameLists.refl b) rfl fun p => by cases p <;> exact ⟨rfl, rfl, rfl⟩
  | freshness p => exact (b.reloadFreshness_frame p).keeps
  | lastSample p v => exact b.modDryness_keeps p fun _ => id
  | peak v => exact b.modMains_keeps _
  | held i high => exact b.setContacts_keeps _
  | forced causes => exact b.setAlerts_keeps _ fun h => h

theorem Blocks.PathStep.keeps {b c : Blocks} (h : b.PathStep c) : b.Keeps P c := by
  cases h with
  | quiet h => exact h.keeps
  | pocket p st seq => exact (b.pocketTaken_keeps p st seq).trans (Blocks.settle_keeps _)
  | common j r => exact (b.commonTaken_keeps j r).trans (Blocks.settle_keeps _)

/-! ## Events -/

theorem Blocks.lockoutAfter_keeps (b : Blocks) (k : Cause) (p : Pocket) (l : Lockout) :
    b.Keeps P ((b.raiseCause k).lockoutFault p l) :=
  ((b.raiseCause_frame k).trans (Blocks.lockoutFault_frame _ p l)).keeps

theorem Blocks.exhaustUpdated_keeps (b : Blocks) (p : Pocket) (before : Bool) : b.Keeps P (b.exhaustUpdated p before) := by
  unfold Blocks.exhaustUpdated
  obtain ⟨b₁, h₁⟩ : ∃ b₁, b₁ = if !before && b.overheat p then
      (b.raiseCause (.overheat p)).lockoutFault p .overheat else b := ⟨_, rfl⟩
  have k₁ : b.Keeps P (b₁.evaluateWants p) := by
    refine Blocks.Keeps.trans ?_ (b₁.evaluateWants_keeps p)
    rw [h₁]; split
    · exact b.lockoutAfter_keeps _ p _
    · exact .refl b
  rw [← h₁]
  extract_lets c cool
  split
  · exact k₁.trans (Blocks.coolEnd_frame _ p).keeps
  · exact k₁

theorem Blocks.filteredUpdate_keeps (b : Blocks) (ch : Sensor) (t : Int) (f : Channel → Channel) :
    b.Keeps P (b.filteredUpdate ch t f) := by
  cases ch with
  | exhaust p => exact (b.modChannel_keeps _ _).trans (Blocks.exhaustUpdated_keeps _ p _)
  | inlet => exact b.modChannel_keeps .inlet fun c => f (c.update t)

theorem Blocks.faultChannel_keeps (b : Blocks) (ch : Sensor) (side : Side) : b.Keeps P (b.faultChannel ch side) := by
  have faulted := b.modChannel_keeps (P := P) ch fun c => { c with fault := some side, bad := 3, good := 0, ring := [] }
  cases ch with
  | exhaust p => exact faulted.trans (Blocks.lockoutAfter_keeps _ _ p _)
  | inlet => exact faulted

theorem Blocks.takeSample_keeps (b : Blocks) (ch : Sensor) (raw : Nat) : b.Keeps P (b.takeSample ch raw) := by
  have kept := b.modChannel_keeps (P := P) ch fun c => { c with lastRaw := raw }
  unfold Blocks.takeSample
  dsimp only
  split
  · split
    · exact kept.trans (Blocks.filteredUpdate_keeps _ ch _ _)
    · split
      · exact kept.trans (Blocks.faultChannel_keeps _ ch _)
      · exact kept.trans (Blocks.modChannel_keeps _ ch _)
  · split
    · split
      · exact kept.trans (Blocks.filteredUpdate_keeps _ ch _ _)
      · exact kept.trans (Blocks.modChannel_keeps _ ch _)
    · exact kept.trans (Blocks.modChannel_keeps _ ch _)

theorem Blocks.silenceReached_frame (b : Blocks) (p : Pocket) (coast : P p → (b.pocket p).drum.state ≠ .coast) :
    b.SeqFrame P (b.silenceReached p) := by
  unfold Blocks.silenceReached
  dsimp only
  split
  · refine (b.modDrum_frame p ?_).trans (Blocks.trySpinUp_frame _ p)
    exact fun _ _ bound => bound
  · rename_i state
    refine (b.modDrum_frame_of_off p _ fun hp => absurd state (coast hp)).trans
      (Blocks.judgeCoast_frame _ p fun hp => absurd state (coast hp))
  · refine (b.modDrum_frame p ?_).trans (Blocks.drumFault_frame _ p _)
    exact fun _ _ bound => bound
  · refine b.modDrum_frame p ?_
    exact fun _ _ bound => bound

theorem Blocks.coastLimit_frame (b : Blocks) (p : Pocket) (off : ¬P p) : b.SeqFrame P (b.coastLimit p) := by
  unfold Blocks.coastLimit
  dsimp only
  have limit := b.modDrum_frame_of_off p (fun d => { d with coastTimer := 15000 }) fun hp => absurd hp off
  split
  · exact limit.trans (Blocks.judgeCoast_frame _ p fun hp => absurd hp off)
  · exact limit.trans (Blocks.drumFault_frame _ p _)

theorem nextWetness_le {alpha w : Nat} (hits : Nat) (weight : alpha ≤ 64) (wet : w ≤ 65535) :
    nextWetness alpha hits w ≤ 65535 := by
  have x : (windowValue hits : Int) ≤ 65535 := by unfold windowValue; omega
  obtain ⟨n, hn⟩ : ∃ n : Int, n = ((windowValue hits : Int) - w) * alpha := ⟨_, rfl⟩
  unfold nextWetness
  rw [← hn]
  -- (X − W) × α / 64 is no more than X − W where X is above W, and no more than 0 otherwise
  have bound : n.tdiv 64 ≤ max 0 ((windowValue hits : Int) - w) := by
    obtain above | below := le_total 0 ((windowValue hits : Int) - w)
    · have product : n ≤ ((windowValue hits : Int) - w) * 64 := by
        rw [hn]; exact mul_le_mul_of_nonneg_left (by omega) above
      have nonneg : 0 ≤ n := by rw [hn]; exact mul_nonneg above (by omega)
      rw [Int.tdiv_eq_ediv_of_nonneg nonneg]
      omega
    · have nonpos : n ≤ 0 := by rw [hn]; exact mul_nonpos_of_nonpos_of_nonneg below (by omega)
      have quotient : 0 ≤ (-n).tdiv 64 := Int.tdiv_nonneg (by omega) (by omega)
      rw [Int.neg_tdiv] at quotient
      omega
  omega

theorem Blocks.completeWindow_keeps (b : Blocks) (p : Pocket) (hits : Nat) : b.Keeps P (b.completeWindow p hits) := by
  have completed : b.Keeps P (b.modPocket p fun u => { u with dryness := u.dryness.complete u.tuning hits }) := by
    refine b.modPocket_keeps p (fun _ => ⟨rfl, rfl⟩) (fun ⟨_, _, wetness, weight⟩ => ?_) fun _ => id
    exact ⟨Nat.zero_le _, Nat.le_refl _, nextWetness_le hits weight wetness, weight⟩
  unfold Blocks.completeWindow
  extract_lets c u
  split
  · exact completed.trans (Blocks.dryReport_frame _ p _).keeps
  · exact completed

theorem Blocks.gatedSample_keeps (b : Blocks) (p : Pocket) (v : Nat) : b.Keeps P (b.gatedSample p v) := by
  unfold Blocks.gatedSample
  dsimp only
  split
  case isTrue room =>
    refine b.modPocket_keeps p (fun _ => ⟨rfl, rfl⟩) (fun ⟨_, hits, wetness, weight⟩ => ?_) fun _ => id
    refine ⟨Nat.succ_le_of_lt room, ?_, wetness, weight⟩
    dsimp only
    split <;> omega
  case isFalse =>
    exact b.completeWindow_keeps p _

theorem Blocks.judgeAmplitude_keeps (b : Blocks) (amp : Nat) : b.Keeps P (b.judgeAmplitude amp) := by
  unfold Blocks.judgeAmplitude
  dsimp only
  split
  · split
    · split
      · exact (b.modMains_keeps _).trans (Blocks.present_keeps _ _)
      · exact b.modMains_keeps _
    · exact b.modMains_keeps _
  · split
    · split
      · exact (b.modMains_keeps _).trans (Blocks.withdrawCause_keeps _ _)
      · exact b.modMains_keeps _
    · exact b.modMains_keeps _
  · exact .refl b

theorem Blocks.crossing_keeps (b : Blocks) : b.Keeps P b.crossing := by
  have switched : b.Keeps P (b.modLoad fun l => l.switchOutputs l.grants) := b.modLoad_keeps _ fun _ => ⟨rfl, rfl⟩
  unfold Blocks.crossing
  dsimp only
  refine Blocks.Keeps.trans ?_ (Blocks.modMains_keeps _ _)
  split
  · exact switched.trans (Blocks.modMains_keeps _ _)
  · split
    · exact (switched.trans (Blocks.modMains_keeps _ _)).trans (Blocks.judgeAmplitude_keeps _ _)
    · exact switched

theorem Blocks.loseMains_keeps (b : Blocks) : b.Keeps P b.loseMains := by
  have off : b.Keeps P (b.modLoad fun l => l.switchOutputs []) := b.modLoad_keeps _ fun _ => ⟨rfl, rfl⟩
  unfold Blocks.loseMains
  dsimp only
  split
  · exact (off.trans (Blocks.modMains_keeps _ _)).trans (Blocks.present_keeps _ _)
  · exact off.trans (Blocks.modMains_keeps _ _)

theorem Blocks.chordChanged_keeps (b : Blocks) : b.Keeps P b.chordChanged := by
  unfold Blocks.chordChanged
  split
  case h_4 => exact .refl b
  all_goals exact b.setContacts_keeps _

theorem Blocks.handChange_keeps (b : Blocks) (f : InputFunction) (was now : Level) :
    b.Keeps P (b.handChange f was now) := by
  unfold Blocks.handChange
  split
  case h_1 =>
    split
    · exact (b.doorOpens_frame _).keeps
    · exact .refl b
  case h_2 =>
    split
    · exact (b.lintRemoved_frame _).keeps
    · exact .refl b
  case h_3 =>
    unfold Blocks.cutoutChanged
    split
    · exact b.withdrawCause_keeps _
    · split
      · exact (b.present_keeps _).trans (Blocks.lockoutFault_frame _ _ _).keeps
      · exact b.present_keeps _
  case h_4 =>
    unfold Blocks.beltChanged
    split
    · exact (b.drumFault_frame _ _).keeps
    · exact .refl b
  case h_5 => exact b.chordChanged_keeps
  all_goals exact .refl b

/-- A stage that enters or leaves DWELL, or is OFF, in no list before and in none after. -/
theorem Blocks.modStage_unlisted (b : Blocks) (st : Stage) (f : StageUnit → StageUnit)
    (before : (b.stage st).state = .off ∨ (b.stage st).state = .dwell)
    (after : (f (b.stage st)).state = .off ∨ (f (b.stage st)).state = .dwell) (h : b.ListsAgree) :
    (b.modStage st f).ListsAgree := by
  obtain ⟨grants, queue, agree⟩ := h
  refine ⟨by rwa [b.modStage_load], by rwa [b.modStage_load], fun u => ?_⟩
  rw [b.modStage_load, b.modStage_at]
  have unlisted := agree u
  split
  case isTrue e =>
    subst e
    obtain ha | ha := after <;> obtain hb | hb := before <;> simp_all
  case isFalse => exact unlisted

theorem Blocks.modStage_keeps (b : Blocks) (st : Stage) (f : StageUnit → StageUnit)
    (lists : b.ListsAgree → (b.modStage st f).ListsAgree) : b.Keeps P (b.modStage st f) := by
  refine ⟨lists, by rw [b.modStage_alerts]; exact id, fun p => ?_, fun p _ dir => ?_⟩
  all_goals cases st <;> cases p <;> exact id

theorem Blocks.clearNotBefore_keeps (b : Blocks) (st : Stage) :
    b.Keeps P (b.modLoad fun l => { l with queue := clearNotBefore st l.queue }) := by
  have stages : (clearNotBefore st b.load.queue).map QueueEntry.stage = b.load.queue.map QueueEntry.stage := by
    rw [clearNotBefore, List.map_map]
    exact List.map_congr_left fun e _ => by dsimp only [Function.comp]; split <;> rfl
  refine ⟨fun ⟨grants, queue, agree⟩ => ⟨grants, ?_, fun u => ?_⟩, id, fun p => by cases p <;> exact id,
    fun p _ _ => by cases p <;> exact id⟩
  · rw [Blocks.modLoad_load, stages]; exact queue
  · rw [Blocks.modLoad_load, stages, Blocks.modLoad_stage]; exact agree u

theorem Blocks.holdPocket_frame (b : Blocks) (p : Pocket) : b.SeqFrame P (b.holdPocket p) :=
  (b.modCycle_frame p _).trans (Blocks.stopDrum_frame _ p)

/-- The first of a pocket's stages, or the second, at entry to hold. -/
theorem Blocks.modStage_enterHeld_lists (b : Blocks) (st : Stage) (h : b.ListsAgree) :
    (b.modStage st StageUnit.enterHeld).ListsAgree := by
  by_cases off : (b.stage st).state = .off
  · exact b.modStage_unlisted st _ (.inl off) (.inr (by simp [StageUnit.enterHeld, off])) h
  · refine Blocks.listsAgree_congr (fun u => ?_) (by rw [b.modStage_load]) (by rw [b.modStage_load]) h
    rw [b.modStage_at]
    split
    case isTrue e => rw [e]; simp [StageUnit.enterHeld, off]
    case isFalse => rfl

theorem Blocks.holdStages_keeps (b : Blocks) (p : Pocket) : b.Keeps P (b.holdStages p) := by
  have both : b.modPocket p (fun u => { u with stage1 := u.stage1.enterHeld, stage2 := u.stage2.enterHeld }) =
      (b.modStage (stagesOf p).1 StageUnit.enterHeld).modStage (stagesOf p).2 StageUnit.enterHeld := by cases p <;> rfl
  unfold Blocks.holdStages
  split
  · rw [both]
    exact (b.modStage_keeps _ _ (b.modStage_enterHeld_lists _)).trans
      (Blocks.modStage_keeps _ _ _ (Blocks.modStage_enterHeld_lists _ _))
  · exact .refl b

theorem Blocks.setHeld_keeps (b : Blocks) (v : Bool) : b.Keeps P { b with held := v } :=
  Blocks.SameLists.keeps (Blocks.SameLists.refl b) rfl fun p => by cases p <;> exact ⟨rfl, rfl, rfl⟩

theorem Blocks.landFromHold_frame (b : Blocks) (p : Pocket) : b.SeqFrame P (b.landFromHold p) := by
  unfold Blocks.landFromHold
  split
  · split
    · exact b.goFaulted_frame p
    · exact b.entryLockout_frame p
  · split
    · exact .refl b
    · exact b.enterIdle_frame p
  · exact .refl b

theorem Blocks.releasePocket_frame (b : Blocks) (p : Pocket) : b.SeqFrame P (b.releasePocket p) := by
  unfold Blocks.releasePocket
  dsimp only
  split
  · refine Blocks.SeqFrame.trans ?_ (Blocks.landFromHold_frame _ p)
    split
    · exact (b.modCycle_frame p _).trans (Blocks.raiseCause_frame _ _)
    · exact b.modCycle_frame p _
  · exact .refl b

/-- Before its end an event keeps the laws, and the direction of a drum whose motor was on. -/
theorem Blocks.Happens.keeps {b c : Blocks} (h : b.Happens c) :
    b.Keeps (fun p => (b.pocket p).drum.motorOn = true) c := by
  have coast : ∀ {p}, (b.pocket p).drum.state = .coast → ¬(b.pocket p).drum.motorOn = true := fun state => by
    simp [Drum.motorOn, state]
  cases h with
  | timeLimit p => exact (b.judgeTimeLimit_frame p).keeps
  | extensionEnd p => exact (b.enterCooling_frame p _).keeps
  | coolTime p => exact (b.coolEnd_frame p).keeps
  | burst p => exact ((b.modCycle_frame p _).trans (Blocks.burstRequest_frame _ p)).keeps
  | guardEnd p => exact (b.enterDone_frame p).keeps
  | stale p => exact (b.modCycle_frame p _).keeps.trans (Blocks.lockoutAfter_keeps _ _ p _)
  | pulse p i high => exact (b.setContacts_keeps _).trans (Blocks.pulse_frame _ p).keeps
  | silence p => exact (b.silenceReached_frame p fun on state => coast state on).keeps
  | spinupFail p =>
    refine Blocks.Keeps.trans ?_ (Blocks.drumFault_frame _ p _).keeps
    exact b.modPocket_keeps p (fun _ => ⟨rfl, rfl⟩) id fun _ => id
  | runEnd p => exact (b.judgeRunEnd_frame p).keeps
  | coastEnd p state => exact (b.judgeCoast_frame p fun on => absurd on (coast state)).keeps
  | noStop p state => exact (b.coastLimit_frame p (coast state)).keeps
  | sample ch raw => exact b.takeSample_keeps ch raw
  | dwellEnd st dwell => exact b.modStage_keeps st _ (b.modStage_unlisted st _ (.inr dwell) (.inl rfl))
  | allowanceEnd p => exact b.modLoad_keeps _ fun _ => by cases p <;> exact ⟨rfl, rfl⟩
  | pacing => exact b.modLoad_keeps _ fun _ => ⟨rfl, rfl⟩
  | notBefore st => exact b.clearNotBefore_keeps st
  | crossing v => exact (b.modMains_keeps _).trans (Blocks.crossing_keeps _)
  | mainsLost => exact b.loseMains_keeps
  | gated p v => exact (b.modDryness_keeps p fun _ => id).trans (Blocks.gatedSample_keeps _ p v)
  | input i high f was now => exact (b.setContacts_keeps _).trans (Blocks.handChange_keeps _ f was now)
  | chord => exact b.panelStop_frame.keeps
  | hold =>
    refine Blocks.Keeps.trans ?_ (Blocks.raiseCause_frame _ _).keeps
    exact ((((b.setHeld_keeps true).trans (Blocks.holdPocket_frame _ .a).keeps).trans
      (Blocks.holdPocket_frame _ .b).keeps).trans (Blocks.holdStages_keeps _ .a)).trans (Blocks.holdStages_keeps _ .b)
  | release =>
    refine Blocks.Keeps.trans ?_ (Blocks.raiseCause_frame _ _).keeps
    exact ((((b.setHeld_keeps false).trans (Blocks.releasePocket_frame _ .a).keeps).trans
      (Blocks.releasePocket_frame _ .b).keeps).trans (Blocks.trySpinUp_frame _ .a).keeps).trans
        (Blocks.trySpinUp_frame _ .b).keeps

end

/-- Every command that is no reset keeps the laws, and the direction of a drum whose motor was on. -/
theorem Blocks.Becomes.keeps {b c : Blocks} (h : b.Becomes c) :
    b.Keeps (fun p => (b.pocket p).drum.motorOn = true) c := by
  cases h with
  | path h =>
    induction h with
    | refl => exact .refl b
    | tail _ step ih => exact ih.trans step.keeps
  | event h => exact h.keeps.trans (Blocks.settle_keeps _)

end Sys2Proof.Machine
end

section
/-! SUPPORT. What one clock cycle leaves of the blocks (log entry 3) and what a reset leaves; with them the laws of the
dryness units and the fault list, and the direction of the drums (R52, R121, R130, R156, R172). -/

namespace Sys2Proof.Machine

/-! ## One clock cycle -/

/-- A pocket after a clock cycle that is, or is not, one of the 1 ms and of the 1 s, its outputs heating or not. -/
def PocketUnit.passed (ms second heated : Bool) (u : PocketUnit) : PocketUnit :=
  let v := if ms then u.nextInstant.tickMs else u.nextInstant
  if second then v.tickSecond heated else v

/-- A pocket's stage output is energised: Th counts (R92). -/
def LoadShare.heats (l : LoadShare) : Pocket → Bool
  | .a => l.outA1 || l.outA2
  | .b => l.outB1 || l.outB2

section

variable (b : Blocks) (pins : Pins)

theorem Blocks.tick_pocket (p : Pocket) :
    (b.tick pins).pocket p = (b.pocket p).passed (atMultiple (b.clock + 1) 1000) (atMultiple (b.clock + 1) 1000000)
      (b.load.heats p) := by
  unfold Blocks.tick PocketUnit.passed
  dsimp only
  split <;> split <;> split <;> cases p <;> rfl

theorem Blocks.tick_load :
    (b.tick pins).load =
      let kept := { b.load with
        mains := { b.load.mains with keptPeak := max b.load.mains.keptPeak pins.mainsSense.toNat } }
      if atMultiple (b.clock + 1) 1000 then kept.tickMs else kept := by
  unfold Blocks.tick
  dsimp only
  split <;> split <;> split <;> rfl

theorem Blocks.tick_contacts :
    (b.tick pins).contacts =
      let sampled := if atMultiple (b.clock + 1) 100 then
        { b.contacts with
          inputs := (List.range 12).map fun i => (b.input i).sample (b.clock + 1 == 100) (pins.contact i) }
        else b.contacts
      if atMultiple (b.clock + 1) 1000 then sampled.tickMs else sampled := by
  unfold Blocks.tick
  dsimp only
  split <;> split <;> split <;> rfl

/-- What no clock cycle changes. -/
theorem Blocks.tick_rest :
    (b.tick pins).working = b.working ∧ (b.tick pins).optionState = b.optionState ∧ (b.tick pins).held = b.held ∧
      (b.tick pins).clock = b.clock + 1 ∧ (b.tick pins).draws = b.draws ∧ (b.tick pins).inlet = b.inlet ∧
      (b.tick pins).alerts = b.alerts := by
  unfold Blocks.tick
  dsimp only
  split <;> split <;> split <;> exact ⟨rfl, rfl, rfl, rfl, rfl, rfl, rfl⟩

end

/-- What a clock cycle leaves of a pocket alone: fields, temperatures, permission, windows. -/
theorem PocketUnit.passed_rest (ms second heated : Bool) (u : PocketUnit) :
    (u.passed ms second heated).tuning = u.tuning ∧ (u.passed ms second heated).exhaust = u.exhaust ∧
      (u.passed ms second heated).permission = u.permission ∧ (u.passed ms second heated).dryness = u.dryness := by
  cases ms <;> cases second <;> exact ⟨rfl, rfl, rfl, rfl⟩

/-- Of a drum only timers count. -/
theorem PocketUnit.passed_drum (ms second heated : Bool) (u : PocketUnit) :
    (u.passed ms second heated).drum = if ms then u.drum.tickMs else u.drum := by
  cases ms <;> cases second <;> rfl

/-- Of a pocket's context only counters count. -/
theorem PocketUnit.passed_cycle (ms second heated : Bool) (u : PocketUnit) :
    ∃ elapsed th extension cool creaseTimer creaseElapsed freshness,
      (u.passed ms second heated).cycle =
        { u.cycle with
          elapsed := elapsed, th := th, extension := extension, cool := cool, creaseTimer := creaseTimer,
          creaseElapsed := creaseElapsed, freshness := freshness } := by
  cases ms <;> cases second <;> exact ⟨_, _, _, _, _, _, _, rfl⟩

theorem Drum.tickMs_dir (d : Drum) : d.tickMs.dir = d.dir := rfl

/-! ## Resets -/

theorem Blocks.deEnergise_pocket (b : Blocks) (p : Pocket) :
    b.deEnergise.pocket p = { b.pocket p with drum := .reset } := by
  cases p <;> rfl

theorem Alerts.reset_lawful : Alerts.reset.Lawful := ⟨Nat.zero_le _, trivial⟩

theorem Alerts.emptied_lawful {a : Alerts} (h : a.Lawful) : a.emptied.Lawful := h

theorem Alerts.afterReset_lawful {a : Alerts} (h : a.Lawful) (k : ResetKind) : (a.afterReset k).Lawful := by
  cases k with
  | powerOn => exact Alerts.reset_lawful
  | pin => exact h
  | service => exact h

/-- The blocks at step 5 before the unmapped cutouts are presented (R142). -/
def Blocks.cleared (b : Blocks) (row : List Byte) (k : ResetKind) : Blocks :=
  { working := row
    optionState := checkRow row
    held := false
    clock := 0
    draws := b.draws
    pocketA := .reset
    pocketB := .reset
    inlet := .reset
    load := .reset (rowSupplyMax row)
    contacts := .reset
    alerts := b.alerts.afterReset k }

theorem Blocks.afterReset_eq (b : Blocks) (row : List Byte) (k : ResetKind) :
    b.afterReset row k = ((b.cleared row k).presentUnmapped .a).presentUnmapped .b := rfl

theorem Blocks.cleared_pocket (b : Blocks) (row : List Byte) (k : ResetKind) (p : Pocket) :
    (b.cleared row k).pocket p = .reset := by cases p <;> rfl

/-- A change of the alert controller alone. -/
def Blocks.AlertsOnly (b c : Blocks) : Prop := ∃ a, c = { b with alerts := a }

theorem Blocks.present_alertsOnly (b : Blocks) (k : Cause) : b.AlertsOnly (b.present k) := by
  unfold Blocks.present
  rw [Blocks.makePending_alerts]
  exact ⟨_, rfl⟩

theorem Blocks.presentUnmapped_alertsOnly (b : Blocks) (p : Pocket) : b.AlertsOnly (b.presentUnmapped p) := by
  unfold Blocks.presentUnmapped
  split
  · exact b.present_alertsOnly _
  · exact ⟨_, rfl⟩

/-- Step 5 gives the reset values; the alert controller presents the unmapped cutouts besides (R142, R172). -/
theorem Blocks.afterReset_alertsOnly (b : Blocks) (row : List Byte) (k : ResetKind) :
    (b.cleared row k).AlertsOnly (b.afterReset row k) := by
  rw [b.afterReset_eq]
  obtain ⟨a₁, h₁⟩ := (b.cleared row k).presentUnmapped_alertsOnly .a
  obtain ⟨a₂, h₂⟩ := ((b.cleared row k).presentUnmapped .a).presentUnmapped_alertsOnly .b
  exact ⟨a₂, by rw [h₂, h₁]⟩

theorem Blocks.afterReset_pocket (b : Blocks) (row : List Byte) (k : ResetKind) (p : Pocket) :
    (b.afterReset row k).pocket p = .reset := by
  obtain ⟨a, h⟩ := b.afterReset_alertsOnly row k
  rw [h, ← b.cleared_pocket row k p]
  cases p <;> rfl

theorem Blocks.presentUnmapped_lawful (b : Blocks) (p : Pocket) (h : b.alerts.Lawful) :
    (b.presentUnmapped p).alerts.Lawful := by
  unfold Blocks.presentUnmapped
  split
  · exact (b.present_keeps (P := fun _ => True) _).alerts h
  · exact h

theorem Blocks.afterReset_lawful (b : Blocks) (row : List Byte) (k : ResetKind) (h : b.alerts.Lawful) :
    (b.afterReset row k).alerts.Lawful := by
  rw [b.afterReset_eq]
  exact Blocks.presentUnmapped_lawful _ _ (Blocks.presentUnmapped_lawful _ _ (Alerts.afterReset_lawful h k))

/-! ## The laws of the dryness units and the fault list, and the direction -/

theorem Dryness.reset_lawful : Dryness.reset.Lawful Tuning.reset := by
  unfold Dryness.Lawful
  decide

/-- Settles O5: fields are taken within their ranges, a window is counted up to 255 samples and then completed, and the index
moves to a value between the old one and the window's. -/
theorem everyStepKeepsDrynessLaw : Obligations.EveryStepKeepsDrynessLaw := by
  intro s t law stepped p
  obtain ⟨turns, -⟩ | ⟨-, -, -, n, blocks⟩ := step_does stepped
  · cases turns with
    | goesOn _ becomes => exact becomes.keeps.dryness p (law p)
    | stops _ blocks =>
      obtain same | ⟨n, off⟩ := blocks
      · rw [same]; exact law p
      · rw [off, Blocks.deEnergise_pocket]
        cases p
        · exact law .a
        · exact law .b
    | starts _ row k blocks =>
      rw [blocks, Blocks.afterReset_pocket]
      exact Dryness.reset_lawful
  · have pocket : t.blocks.pocket p = (s.blocks.tick s.pins).pocket p := by rw [blocks]; cases p <;> rfl
    obtain ⟨tuning, -, -, dryness⟩ := PocketUnit.passed_rest (atMultiple (s.blocks.clock + 1) 1000)
      (atMultiple (s.blocks.clock + 1) 1000000) (s.blocks.load.heats p) (s.blocks.pocket p)
    rw [pocket, Blocks.tick_pocket, tuning, dryness]
    exact law p

/-- Settles O6: an entry joins the list with the next serial, the oldest leaving sixteen, and the list is emptied or kept
besides. -/
theorem everyStepKeepsFaultListLaw : Obligations.EveryStepKeepsFaultListLaw := by
  intro s t law stepped
  obtain ⟨turns, -⟩ | ⟨-, -, -, n, blocks⟩ := step_does stepped
  · cases turns with
    | goesOn _ becomes => exact becomes.keeps.alerts law
    | stops _ blocks =>
      obtain same | ⟨n, off⟩ := blocks
      · rw [State.FaultListLaw, same]; exact law
      · rw [State.FaultListLaw, off]
        exact Alerts.emptied_lawful law
    | starts _ row k blocks =>
      rw [State.FaultListLaw, blocks]
      exact s.blocks.afterReset_lawful row k law
  · obtain ⟨-, -, -, -, -, -, alerts⟩ := s.blocks.tick_rest s.pins
    rw [State.FaultListLaw, blocks]
    show Alerts.Lawful (s.blocks.tick s.pins).alerts
    rw [alerts]
    exact law

/-- Settles O8: a drum whose motor is on changes only by going to COAST or RUN, which leaves DIR, until a reset. -/
theorem directionChangesOnlyWithMotorOff : Obligations.DirectionChangesOnlyWithMotorOff := by
  intro s t p stepped changed
  by_contra none
  obtain ⟨on, notReset⟩ := not_or.1 none
  have bound := Drum.bound_of_motorOn (eq_true_of_ne_false on)
  refine changed ?_
  obtain ⟨turns, -⟩ | ⟨-, -, -, n, blocks⟩ := step_does stepped
  · cases turns with
    | goesOn _ becomes => exact (becomes.keeps.drum p (eq_true_of_ne_false on) _ bound).1
    | stops _ blocks =>
      obtain same | ⟨n, off⟩ := blocks
      · rw [same]
      · exact absurd (by rw [off, Blocks.deEnergise_pocket]) notReset
    | starts _ row k blocks => exact absurd (by rw [blocks, Blocks.afterReset_pocket]; rfl) notReset
  · have pocket : t.blocks.pocket p = (s.blocks.tick s.pins).pocket p := by rw [blocks]; cases p <;> rfl
    rw [pocket, Blocks.tick_pocket, PocketUnit.passed_drum]
    split
    · exact Drum.tickMs_dir _
    · rfl

end Sys2Proof.Machine
end

section
/-! SUPPORT. The law of heat over every step (R83, R88, R101, R105): every event ends in settling, and what happens between
events touches nothing that the law reads. -/

namespace Sys2Proof.Machine

/-! ## The input map -/

/-- The carrier of a function is an input mapped to it. -/
theorem findCarrier_some {row : List Byte} {f : InputFunction} {n i j : Nat} (h : findCarrier row f n i = some j) :
    i ≤ j ∧ j < i + n ∧ rowFunction row j = f := by
  induction n generalizing i with
  | zero => simp [findCarrier] at h
  | succ n ih =>
    rw [findCarrier] at h
    split at h
    case isTrue carries =>
      obtain rfl := Option.some.inj h
      exact ⟨Nat.le_refl _, by omega, carries⟩
    case isFalse =>
      obtain ⟨low, high, carries⟩ := ih h
      exact ⟨by omega, by omega, carries⟩

theorem carrier_lt {row : List Byte} {f : InputFunction} {i : Nat} (h : carrier row f = some i) : i < 12 := by
  have := (findCarrier_some h).2.1
  omega

/-! ## What the law of heat reads -/

/-- Nothing that the law of heat reads of a stage differs. -/
def StageUnit.Alike (u v : StageUnit) : Prop := v.state = u.state ∧ v.want = u.want

/-- Nothing that the law of heat reads of a pocket differs. -/
structure PocketUnit.HeatAlike (u v : PocketUnit) : Prop where
  state : v.cycle.state = u.cycle.state
  lockout : v.cycle.lockout = u.cycle.lockout
  drum : v.drum.state = u.drum.state
  speed : v.drum.speed = u.drum.speed
  tuning : v.tuning = u.tuning
  exhaust : v.exhaust = u.exhaust
  permission : v.permission = u.permission
  gate : v.dryness.gateOpen = u.dryness.gateOpen
  stage1 : u.stage1.Alike v.stage1
  stage2 : u.stage2.Alike v.stage2

/-- Nothing that the law of heat reads of the load share unit differs, but that the pacing timer may have come away from
250 ms. -/
structure LoadShare.HeatAlike (l m : LoadShare) : Prop where
  grants : m.grants = l.grants
  supply : m.supplyLimit = l.supplyLimit
  mains : m.mains.state = l.mains.state
  allowanceA : m.allowanceA.isSome = l.allowanceA.isSome
  allowanceB : m.allowanceB.isSome = l.allowanceB.isSome
  queue : m.queue.map (fun e => (e.stage, e.notBefore.isNone)) = l.queue.map fun e => (e.stage, e.notBefore.isNone)
  pacing : m.pacing = 250 → l.pacing = 250

theorem PocketUnit.HeatAlike.refl (u : PocketUnit) : u.HeatAlike u :=
  ⟨rfl, rfl, rfl, rfl, rfl, rfl, rfl, rfl, ⟨rfl, rfl⟩, ⟨rfl, rfl⟩⟩

theorem LoadShare.HeatAlike.refl (l : LoadShare) : l.HeatAlike l := ⟨rfl, rfl, rfl, rfl, rfl, rfl, id⟩

/-- Nothing that the law of heat reads differs. -/
structure Blocks.HeatAlike (b c : Blocks) : Prop where
  working : c.working = b.working
  optionState : c.optionState = b.optionState
  held : c.held = b.held
  pocket : ∀ p, (b.pocket p).HeatAlike (c.pocket p)
  level : ∀ i, i < 12 → (c.input i).level = (b.input i).level
  load : b.load.HeatAlike c.load

namespace Blocks.HeatAlike

variable {b c : Blocks}

theorem functionLevel (h : b.HeatAlike c) (f : InputFunction) : c.functionLevel f = b.functionLevel f := by
  unfold Blocks.functionLevel
  rw [h.working]
  cases found : carrier b.working f with
  | none => rfl
  | some i => simp [h.level i (carrier_lt found)]

theorem stage (h : b.HeatAlike c) (st : Stage) : (b.stage st).Alike (c.stage st) := by
  cases st
  · exact (h.pocket .a).stage1
  · exact (h.pocket .a).stage2
  · exact (h.pocket .b).stage1
  · exact (h.pocket .b).stage2

theorem permissionHolds (h : b.HeatAlike c) (p : Pocket) : c.permissionHolds p = b.permissionHolds p := by
  simp only [Blocks.permissionHolds, Blocks.exhaustFaulted, Blocks.cutoutOpen, Blocks.airflowHolds, (h.pocket p).state,
    (h.pocket p).drum, (h.pocket p).lockout, (h.pocket p).exhaust, h.held, h.functionLevel]

theorem gateHolds (h : b.HeatAlike c) (p : Pocket) : (c.pocket p).gateHolds = (b.pocket p).gateHolds := by
  simp only [PocketUnit.gateHolds, (h.pocket p).state, (h.pocket p).drum, (h.pocket p).tuning, (h.pocket p).speed]

theorem cost (h : b.HeatAlike c) : c.cost = b.cost := by
  funext st
  cases st <;> simp only [Blocks.cost, h.working]

theorem effectiveBudget (h : b.HeatAlike c) : c.effectiveBudget = b.effectiveBudget := by
  simp only [Blocks.effectiveBudget, Blocks.baseBudget, Blocks.startCost, Blocks.allowances, h.working, h.optionState,
    h.held, h.load.supply, h.load.mains, h.load.allowanceA, h.load.allowanceB]

theorem grantedSum (h : b.HeatAlike c) : c.grantedSum = b.grantedSum := by
  rw [Blocks.grantedSum, Blocks.grantedSum, Blocks.costSum, Blocks.costSum, h.load.grants, h.cost]

theorem queueStages (h : b.HeatAlike c) :
    c.load.queue.map QueueEntry.stage = b.load.queue.map QueueEntry.stage := by
  have stages := congrArg (List.map Prod.fst) h.load.queue
  simpa only [List.map_map, Function.comp_def] using stages

theorem listsAgree (h : b.HeatAlike c) (agree : b.ListsAgree) : c.ListsAgree := by
  obtain ⟨grants, queue, stages⟩ := agree
  refine ⟨by rwa [h.load.grants], by rwa [h.queueStages], fun st => ?_⟩
  rw [(h.stage st).1, h.load.grants, h.queueStages]
  exact stages st

theorem headFits (h : b.HeatAlike c) (none : b.headFits = none) : c.headFits = Option.none := by
  unfold Blocks.headFits at none ⊢
  have heads := h.load.queue
  split
  case h_2 => rfl
  case h_1 e rest queue =>
    rw [queue] at heads
    cases was : b.load.queue with
    | nil => simp [was] at heads
    | cons e' rest' =>
      rw [was] at heads none
      obtain ⟨⟨stage, notBefore⟩, -⟩ : (e.stage = e'.stage ∧ e.notBefore.isNone = e'.notBefore.isNone) ∧ _ := by
        simpa using heads
      refine if_neg fun ⟨free, paced, fits⟩ => ?_
      rw [h.grantedSum, h.cost, h.effectiveBudget, stage] at fits
      rw [free] at notBefore
      have free' : e'.notBefore = Option.none := by simpa using notBefore.symm
      simp [free', h.load.pacing paced, fits] at none

theorem heatSettled (h : b.HeatAlike c) (settled : b.HeatSettled) : c.HeatSettled := by
  obtain ⟨lists, terms, stages, budget, head⟩ := settled
  refine ⟨h.listsAgree lists, fun p => ?_, fun st => ?_, ?_, h.headFits head⟩
  · rw [(h.pocket p).permission, (h.pocket p).gate, h.permissionHolds, h.gateHolds]
    exact terms p
  · rw [(h.stage st).1, (h.stage st).2, (h.pocket _).permission]
    exact stages st
  · rw [h.grantedSum, h.effectiveBudget]
    exact budget

end Blocks.HeatAlike

/-! ## Between events -/

/-- A pocket changed in nothing that the law reads. -/
theorem Blocks.modPocket_heatAlike (b : Blocks) (p : Pocket) (f : PocketUnit → PocketUnit)
    (h : ∀ u, PocketUnit.HeatAlike u (f u)) : b.HeatAlike (b.modPocket p f) where
  working := b.modPocket_working p f
  optionState := b.modPocket_optionState p f
  held := b.modPocket_held p f
  pocket q := by
    by_cases e : q = p
    · rw [e, b.modPocket_pocket]
      exact h _
    · rw [b.modPocket_pocket_of_ne e]
      exact .refl _
  level i _ := by rw [Blocks.input, b.modPocket_contacts]; rfl
  load := by rw [b.modPocket_load]; exact .refl _

/-- An input whose debounced level stands. -/
theorem Blocks.modInput_level (b : Blocks) (i j : Nat) (f : Input → Input) (h : ∀ u, (f u).level = u.level) :
    ((b.modInput i f).input j).level = (b.input j).level := by
  show ((b.contacts.inputs.set i (f (b.input i))).getD j .reset).level = (b.input j).level
  rw [List.getD_eq_getElem?_getD, List.getElem?_set]
  split
  case isTrue e =>
    subst e
    split
    case isTrue inside => exact h _
    case isFalse outside => simp [Blocks.input, List.getD_eq_getElem?_getD, outside]
  case isFalse => rw [← List.getD_eq_getElem?_getD]; rfl

theorem Blocks.pocket_alike_of_eq {b c : Blocks} (a : c.pocketA = b.pocketA) (h : c.pocketB = b.pocketB) (p : Pocket) :
    (b.pocket p).HeatAlike (c.pocket p) := by
  have same : c.pocket p = b.pocket p := by cases p <;> assumption
  rw [same]
  exact .refl _

theorem Blocks.Quiet.heatAlike {b c : Blocks} (h : b.Quiet c) : b.HeatAlike c := by
  have alike : ∀ u : PocketUnit, u.HeatAlike u := PocketUnit.HeatAlike.refl
  cases h with
  | draws n => exact ⟨rfl, rfl, rfl, Blocks.pocket_alike_of_eq rfl rfl, fun _ _ => rfl, .refl _⟩
  | freshness p =>
    unfold Blocks.reloadFreshness Blocks.modCycle
    exact b.modPocket_heatAlike p _ fun u => { alike u with }
  | lastSample p v =>
    unfold Blocks.modDryness
    exact b.modPocket_heatAlike p _ fun u => { alike u with }
  | peak v => exact ⟨rfl, rfl, rfl, Blocks.pocket_alike_of_eq rfl rfl, fun _ _ => rfl, { LoadShare.HeatAlike.refl b.load with }⟩
  | held i high =>
    exact ⟨rfl, rfl, rfl, Blocks.pocket_alike_of_eq rfl rfl, fun j _ => b.modInput_level i j _ fun _ => rfl, .refl _⟩
  | forced causes => exact ⟨rfl, rfl, rfl, Blocks.pocket_alike_of_eq rfl rfl, fun _ _ => rfl, .refl _⟩

theorem StageUnit.tickMs_alike (u : StageUnit) : u.Alike u.tickMs := by
  unfold StageUnit.tickMs
  split <;> exact ⟨rfl, rfl⟩

theorem PocketUnit.passed_heatAlike (ms second heated : Bool) (u : PocketUnit) :
    u.HeatAlike (u.passed ms second heated) := by
  have timed : u.HeatAlike (if ms then u.nextInstant.tickMs else u.nextInstant) := by
    split
    · have stages := StageUnit.tickMs_alike
      exact { PocketUnit.HeatAlike.refl u with stage1 := stages { u.stage1 with ended := false }
                                               stage2 := stages { u.stage2 with ended := false } }
    · exact { PocketUnit.HeatAlike.refl u with }
  unfold PocketUnit.passed
  dsimp only
  split
  · exact { timed with }
  · exact timed

theorem downTo_isSome (v : Option Nat) : (downTo v).isSome = v.isSome := by cases v <;> rfl

theorem downTo_isNone (v : Option Nat) : (downTo v).isNone = v.isNone := by cases v <;> rfl

theorem LoadShare.tickMs_heatAlike (l : LoadShare) : l.HeatAlike l.tickMs where
  grants := rfl
  supply := rfl
  mains := rfl
  allowanceA := downTo_isSome _
  allowanceB := downTo_isSome _
  queue := by
    rw [LoadShare.tickMs, List.map_map]
    exact List.map_congr_left fun e _ => by simp [downTo_isNone]
  pacing h := by
    have counted : upTo 249 l.pacing = 250 := h
    unfold upTo at counted
    split at counted <;> omega

theorem Blocks.tick_level (b : Blocks) (pins : Pins) {i : Nat} (h : i < 12) :
    ((b.tick pins).input i).level = (b.input i).level := by
  have ticked : ∀ c : Contacts, c.tickMs.inputs = c.inputs := fun c => by unfold Contacts.tickMs; split <;> rfl
  have same : (b.tick pins).contacts.inputs = b.contacts.inputs ∨
      (b.tick pins).contacts.inputs =
        (List.range 12).map fun i => (b.input i).sample (b.clock + 1 == 100) (pins.contact i) := by
    rw [b.tick_contacts]
    dsimp only
    split <;> split <;> simp [ticked]
  unfold Blocks.input
  obtain stands | sampled := same
  · rw [stands]
  · rw [sampled, List.getD_eq_getElem?_getD, List.getElem?_map, List.getElem?_range h]
    rfl

theorem Blocks.tick_heatAlike (b : Blocks) (pins : Pins) (n : Nat) : b.HeatAlike { b.tick pins with draws := n } := by
  obtain ⟨working, optionState, held, -⟩ := b.tick_rest pins
  refine ⟨working, optionState, held, fun p => ?_, fun i hi => b.tick_level pins hi, ?_⟩
  · have pocket : ({ b.tick pins with draws := n } : Blocks).pocket p = (b.tick pins).pocket p := by cases p <;> rfl
    rw [pocket, b.tick_pocket]
    exact PocketUnit.passed_heatAlike _ _ _ _
  · show b.load.HeatAlike (b.tick pins).load
    rw [b.tick_load]
    dsimp only
    have kept := LoadShare.tickMs_heatAlike
      { b.load with mains := { b.load.mains with keptPeak := max b.load.mains.keptPeak pins.mainsSense.toNat } }
    split
    · exact { kept with }
    · exact { LoadShare.HeatAlike.refl b.load with }

/-! ## Commands -/

theorem Blocks.PathStep.heatSettled {b c : Blocks} (h : b.PathStep c) (settled : b.HeatSettled) : c.HeatSettled := by
  cases h with
  | quiet h => exact h.heatAlike.heatSettled settled
  | pocket p st seq => exact Blocks.settle_settled _ ((b.pocketTaken_keeps (P := fun _ => True) p st seq).lists settled.1)
  | common j r => exact Blocks.settle_settled _ ((b.commonTaken_keeps (P := fun _ => True) j r).lists settled.1)

/-- Every command that is no reset leaves the heat items settled: either it changes nothing of them, or it ends in
settling. -/
theorem Blocks.Becomes.heatSettled {b c : Blocks} (h : b.Becomes c) (settled : b.HeatSettled) : c.HeatSettled := by
  cases h with
  | path h =>
    induction h with
    | refl => exact settled
    | tail _ step ih => exact step.heatSettled ih
  | event h => exact Blocks.settle_settled _ (h.keeps.lists settled.1)

/-- The reset values are settled: no stage is called for (R93, R106). -/
theorem Blocks.heatSettled_of_reset {b : Blocks} (pocketA : b.pocketA = .reset) (pocketB : b.pocketB = .reset) {n : Nat}
    (load : b.load = .reset n) : b.HeatSettled := by
  have grants : b.load.grants = [] := by rw [load]; rfl
  have queue : b.load.queue = [] := by rw [load]; rfl
  have stage : ∀ st, b.stage st = .reset := fun st => by cases st <;> simp [Blocks.stage, pocketA, pocketB, PocketUnit.reset]
  have pocket : ∀ p, b.pocket p = .reset := fun p => by cases p <;> assumption
  refine ⟨⟨by simp [grants], by simp [queue], fun st => ?_⟩, fun p => ?_, fun st => ?_, ?_, ?_⟩
  · simp [grants, queue, stage, StageUnit.reset]
  · simp only [Blocks.permissionHolds, pocket]
    exact ⟨rfl, rfl⟩
  · simp [stage, StageUnit.reset]
  · simp [Blocks.grantedSum, Blocks.costSum, grants]
  · simp [Blocks.headFits, queue]

theorem Blocks.afterReset_settled (b : Blocks) (row : List Byte) (k : ResetKind) : (b.afterReset row k).HeatSettled := by
  obtain ⟨a, alertsOnly⟩ := b.afterReset_alertsOnly row k
  rw [alertsOnly]
  exact Blocks.heatSettled_of_reset rfl rfl rfl

/-- A stage is granted only while its pocket's permission stands and the budget is not 0 lu (R83, R99). -/
theorem Blocks.granted_spec {b : Blocks} (settled : b.HeatSettled) {st : Stage} (granted : st ∈ b.load.grants) :
    b.permissionHolds (stagePocket st) = true ∧ 0 < b.effectiveBudget := by
  obtain ⟨⟨-, -, lists⟩, terms, stages, budget, -⟩ := settled
  have permitted := ((stages st).1 (.inl ((lists st).1.2 granted))).2
  rw [(terms _).1] at permitted
  refine ⟨permitted, Nat.lt_of_lt_of_le ?_ budget⟩
  have clamped : ∀ v, 0 < clampNat 1 15 v := fun v => by
    unfold clampNat
    split
    · omega
    · split <;> omega
  have priced : 0 < b.cost st := by cases st <;> exact clamped _
  have counted : b.cost st ≤ b.grantedSum := List.single_le_sum (by simp) _ (List.mem_map_of_mem granted)
  omega

/-- Settles O4: an event ends in settling the heat items, and nothing else that a step does is read by the law. -/
theorem everyStepKeepsHeatLaw : Obligations.EveryStepKeepsHeatLaw := by
  refine ⟨fun s t law stepped running => ?_, fun b settled st granted => ?_⟩
  · obtain ⟨turns, -⟩ | ⟨wasRunning, -, -, n, blocks⟩ := step_does stepped
    · cases turns with
      | goesOn phase becomes => exact becomes.heatSettled (law (phase ▸ running))
      | stops phase _ => exact absurd running phase
      | starts _ row k blocks => rw [blocks]; exact s.blocks.afterReset_settled row k
    · rw [blocks]
      exact (s.blocks.tick_heatAlike s.pins n).heatSettled (law wasRunning)
  · obtain ⟨permitted, budget⟩ := Blocks.granted_spec settled granted
    simp only [Blocks.permissionHolds, Bool.and_eq_true, beq_iff_eq] at permitted
    obtain ⟨⟨⟨⟨⟨⟨heating, run⟩, noLockout⟩, -⟩, -⟩, -⟩, free⟩ := permitted
    have valid : b.optionState = .valid := by
      cases state : b.optionState with
      | valid => rfl
      | optionFault => simp [Blocks.effectiveBudget, state] at budget
    refine ⟨?_, run, by simpa using noLockout, by simpa using free, valid⟩
    cases state : (b.pocket (stagePocket st)).cycle.state <;> simp [CycleState.heating, state] at heating ⊢

end Sys2Proof.Machine
end

section
/-! SUPPORT. The law of the cycle contexts over every step (R18, R43, R46, R47): what each change of a context asks of it, and
which operations keep both contexts lawful. -/

namespace Sys2Proof.Machine

/-! ## One context -/

/-- A context that is lawful, and HELD exactly while hold stands. -/
def Cycle.Fits (held : Bool) (c : Cycle) : Prop := c.Lawful ∧ (c.state = .held ↔ held = true)

namespace Cycle

variable {held : Bool} {c d : Cycle}

theorem Fits.startTarget_none (h : c.Fits held) (state : c.state ≠ .starting) : c.startTarget = none := by
  obtain ⟨⟨target, -⟩, -⟩ := h
  exact Option.not_isSome_iff_eq_none.1 fun some => state (target.1 some)

theorem Fits.resume_none (h : c.Fits held) (paused : c.state ≠ .paused) (notHeld : c.state ≠ .held) :
    c.resume = none := by
  obtain ⟨⟨-, resume, -⟩, -⟩ := h
  refine Option.not_isSome_iff_eq_none.1 fun some => ?_
  obtain p | ⟨h, -⟩ := resume.1 some
  · exact paused p
  · exact notHeld h

theorem Fits.holdFrom_none (h : c.Fits held) (notHeld : c.state ≠ .held) : c.holdFrom = none := by
  obtain ⟨⟨-, -, hold, -⟩, -⟩ := h
  exact Option.not_isSome_iff_eq_none.1 fun some => notHeld (hold.1 some)

theorem Fits.not_held (h : c.Fits held) (notHeld : c.state ≠ .held) : held = false := by
  obtain ⟨-, iff⟩ := h
  exact Bool.eq_false_iff.2 fun e => notHeld (iff.2 e)

/-- The context goes from one state to another, neither of them HELD and the new one neither STARTING nor PAUSED, with
start target and resume state removed. -/
theorem Fits.enters (h : c.Fits held) (notHeld : c.state ≠ .held) (hold : d.holdFrom = c.holdFrom)
    (target : d.startTarget = none) (resume : d.resume = none)
    (state : d.state ≠ .held ∧ d.state ≠ .starting ∧ d.state ≠ .paused) : d.Fits held := by
  obtain ⟨notHeld', notStarting, notPaused⟩ := state
  have free := h.not_held notHeld
  rw [h.holdFrom_none notHeld] at hold
  simp [Fits, Lawful, target, resume, hold, free, notHeld', notStarting, notPaused]

/-- The context goes to STARTING with a start target, or to PAUSED with a resume state and no lockout cause. -/
theorem Fits.aims (h : c.Fits held) (notHeld : c.state ≠ .held) (hold : d.holdFrom = c.holdFrom) {t : CycleState}
    (isTarget : t.isTarget = true)
    (state : (d.state = .starting ∧ d.startTarget = some t ∧ d.resume = none) ∨
      (d.state = .paused ∧ d.startTarget = none ∧ d.resume = some t ∧ d.lockout = none)) : d.Fits held := by
  have free := h.not_held notHeld
  rw [h.holdFrom_none notHeld] at hold
  obtain ⟨starting, target, resume⟩ | ⟨paused, target, resume, lockout⟩ := state
  · simp [Fits, Lawful, target, resume, hold, free, starting, isTarget]
  · simp [Fits, Lawful, target, resume, hold, free, paused, isTarget, lockout]

/-- A context of the same state with the same optional items; a lockout cause may be recorded outside PAUSED. -/
theorem Fits.same (h : c.Fits held) (state : d.state = c.state) (target : d.startTarget = c.startTarget)
    (resume : d.resume = c.resume) (hold : d.holdFrom = c.holdFrom)
    (lockout : c.state = .paused → d.lockout = c.lockout) : d.Fits held := by
  obtain ⟨⟨t, r, f, notHeld, ts, rs, paused⟩, heldIff⟩ := h
  refine ⟨⟨?_, ?_, ?_, ?_, ?_, ?_, fun p => ?_⟩, by rwa [state]⟩
  · rwa [target, state]
  · rwa [resume, state, hold]
  · rwa [hold, state]
  · rwa [hold]
  · rwa [target]
  · rwa [resume]
  · rw [state] at p
    rw [lockout p, paused p]

/-- The resume state of an active context is one STARTING can lead to. -/
theorem Fits.resumeState_of_active (h : c.Fits held) (active : c.state.isActive = true) :
    ∃ t, c.resumeState = some t ∧ t.isTarget = true := by
  obtain ⟨⟨target, -, -, -, targets, -⟩, -⟩ := h
  unfold resumeState
  split
  case isTrue starting =>
    obtain ⟨t, ht⟩ := Option.isSome_iff_exists.1 (target.2 starting)
    exact ⟨t, ht, targets t ht⟩
  case isFalse other =>
    refine ⟨c.state, rfl, ?_⟩
    cases state : c.state <;> simp_all [CycleState.isActive, CycleState.isTarget]

theorem ne_held_of_active {s : CycleState} (active : s.isActive = true) : s ≠ .held := by
  rintro rfl
  simp [CycleState.isActive] at active

/-- Entry to HELD (R46). -/
theorem Fits.enterHeld (h : c.Fits false) : c.enterHeld.Fits true := by
  have notHeld : c.state ≠ .held := fun e => by simpa using h.2.1 e
  have targets := h.resumeState_of_active
  obtain ⟨⟨target, resume, -, -, -, resumes, -⟩, -⟩ := id h
  by_cases active : c.state.isActive = true
  · obtain ⟨t, ht, isTarget⟩ := targets active
    simp [Fits, Lawful, Cycle.enterHeld, active, ht, isTarget, notHeld]
  · have notStarting : c.state ≠ .starting := fun e => active (by rw [e]; rfl)
    have noTarget := h.startTarget_none notStarting
    have resumes' : c.resume.isSome = true ↔ c.state = .paused := by simpa [notHeld] using resume
    simp only [Fits, Lawful, Cycle.enterHeld, active, noTarget]
    exact ⟨⟨by simp, by simp [active, resumes'], by simp, by simpa using notHeld, by simp, by simpa using resumes,
      by simp⟩, by simp⟩

/-- A context that has left HELD, before the conditions at its entry are answered: PAUSED may have a lockout cause. -/
def Landed (c : Cycle) : Prop :=
  c.state ≠ .held ∧ c.holdFrom = none ∧ c.startTarget = none ∧ c.state ≠ .starting ∧
    (c.resume.isSome ↔ c.state = .paused) ∧ ∀ t, c.resume = some t → t.isTarget = true

theorem Landed.fits (h : c.Landed) (lockout : c.state = .paused → c.lockout = none) : c.Fits false := by
  obtain ⟨notHeld, hold, target, notStarting, resume, resumes⟩ := h
  exact ⟨⟨by simp [target, notStarting], by simp [resume, notHeld], by simp [hold, notHeld], by simp [hold],
    by simp [target], resumes, lockout⟩, by simpa using notHeld⟩

theorem Landed.enters (h : c.Landed) (hold : d.holdFrom = c.holdFrom) (target : d.startTarget = none)
    (resume : d.resume = none) (state : d.state ≠ .held ∧ d.state ≠ .starting ∧ d.state ≠ .paused) : d.Fits false := by
  obtain ⟨notHeld, notStarting, notPaused⟩ := state
  refine Landed.fits ⟨notHeld, hold.trans h.2.1, target, notStarting, ?_, ?_⟩ fun paused => absurd paused notPaused
  · simp [resume, notPaused]
  · simp [resume]

/-- A lawful context lands by R47's table. -/
theorem Lawful.landed (h : c.Lawful) (state : c.state = .held) (fresh : Nat) :
    { c with state := stateAfterHold c.holdFrom, holdFrom := none, freshness := fresh }.Landed := by
  obtain ⟨target, resume, hold, notHeld, -, resumes, -⟩ := h
  have noTarget : c.startTarget = none := by simpa [state] using target
  obtain ⟨f, hf⟩ := Option.isSome_iff_exists.1 (hold.2 state)
  rw [hf] at notHeld
  have resume' : c.resume.isSome ↔ f.isActive = true ∨ f = .paused := by simpa [state, hf] using resume
  refine ⟨?_, rfl, noTarget, ?_, ?_, resumes⟩
  all_goals
    dsimp only
    rw [hf]
  · cases f <;> simp [stateAfterHold]
  · cases f <;> simp [stateAfterHold]
  · rw [resume']
    cases f <;> simp [stateAfterHold, CycleState.isActive] at notHeld ⊢

end Cycle

/-! ## Both contexts -/

/-- Both contexts are lawful, and HELD exactly while hold stands. -/
def Blocks.CyclesFit (b : Blocks) : Prop := ∀ p, (b.pocket p).cycle.Fits b.held

/-- The contexts go on as they should, hold standing. -/
structure Blocks.KeepsCycles (b c : Blocks) : Prop where
  held : c.held = b.held
  fits : ∀ p, (b.pocket p).cycle.Fits b.held → (c.pocket p).cycle.Fits b.held

namespace Blocks

theorem KeepsCycles.refl (b : Blocks) : b.KeepsCycles b := ⟨rfl, fun _ => id⟩

theorem KeepsCycles.trans {b c d : Blocks} (h : b.KeepsCycles c) (k : c.KeepsCycles d) : b.KeepsCycles d := by
  refine ⟨k.held.trans h.held, fun p fits => ?_⟩
  have later := k.fits p
  rw [h.held] at later
  exact later (h.fits p fits)

theorem KeepsCycles.cyclesFit {b c : Blocks} (h : b.KeepsCycles c) (fits : b.CyclesFit) : c.CyclesFit := fun p => by
  rw [h.held]
  exact h.fits p (fits p)

/-- A change that leaves the contexts alone. -/
theorem KeepsCycles.of_same {b c : Blocks} (held : c.held = b.held)
    (cycle : ∀ p, (c.pocket p).cycle = (b.pocket p).cycle) : b.KeepsCycles c :=
  ⟨held, fun p => by rw [cycle p]; exact id⟩

section

variable (b : Blocks) (p : Pocket)

theorem modPocket_keepsCycles {f : PocketUnit → PocketUnit}
    (h : (b.pocket p).cycle.Fits b.held → (f (b.pocket p)).cycle.Fits b.held) : b.KeepsCycles (b.modPocket p f) := by
  refine ⟨b.modPocket_held p f, fun q => ?_⟩
  by_cases e : q = p
  · subst e
    rw [b.modPocket_pocket]
    exact h
  · rw [b.modPocket_pocket_of_ne e]
    exact id

theorem modCycle_keepsCycles {f : Cycle → Cycle}
    (h : (b.pocket p).cycle.Fits b.held → (f (b.pocket p).cycle).Fits b.held) : b.KeepsCycles (b.modCycle p f) :=
  b.modPocket_keepsCycles p h

theorem modDrum_keepsCycles (f : Drum → Drum) : b.KeepsCycles (b.modDrum p f) := b.modPocket_keepsCycles p id

theorem modDryness_keepsCycles (f : Dryness → Dryness) : b.KeepsCycles (b.modDryness p f) :=
  b.modPocket_keepsCycles p id

theorem modChannel_keepsCycles (ch : Sensor) (f : Channel → Channel) : b.KeepsCycles (b.modChannel ch f) := by
  cases ch with
  | exhaust q =>
    unfold modChannel
    exact b.modPocket_keepsCycles q id
  | inlet => exact .of_same rfl fun q => by cases q <;> rfl

theorem modStage_keepsCycles (st : Stage) (f : StageUnit → StageUnit) : b.KeepsCycles (b.modStage st f) := by
  unfold modStage
  split <;> exact b.modPocket_keepsCycles _ id

theorem modLoad_keepsCycles (f : LoadShare → LoadShare) : b.KeepsCycles (b.modLoad f) :=
  .of_same rfl fun q => by cases q <;> rfl

theorem modMains_keepsCycles (f : Mains → Mains) : b.KeepsCycles (b.modMains f) := b.modLoad_keepsCycles _

theorem setContacts_keepsCycles (c : Contacts) : b.KeepsCycles { b with contacts := c } :=
  .of_same rfl fun q => by cases q <;> rfl

theorem setAlerts_keepsCycles (a : Alerts) : b.KeepsCycles { b with alerts := a } :=
  .of_same rfl fun q => by cases q <;> rfl

theorem makePending_keepsCycles (k : Cause) : b.KeepsCycles (b.makePending k) := by
  rw [b.makePending_alerts k]
  exact b.setAlerts_keepsCycles _

theorem raiseCause_keepsCycles (k : Cause) : b.KeepsCycles (b.raiseCause k) := b.makePending_keepsCycles k

theorem present_keepsCycles (k : Cause) : b.KeepsCycles (b.present k) := by
  obtain ⟨a, h⟩ := b.present_alertsOnly k
  rw [h]
  exact b.setAlerts_keepsCycles a

theorem evaluateWants_keepsCycles : b.KeepsCycles (b.evaluateWants p) := by
  refine b.modPocket_keepsCycles p ?_
  unfold PocketUnit.evaluateWants
  split <;> exact id

theorem settle_keepsCycles : b.KeepsCycles b.settle := .of_same b.settle_held b.settle_cycle

/-! ### The sequencer -/

theorem stopDrum_keepsCycles : b.KeepsCycles (b.stopDrum p) := b.modDrum_keepsCycles p _

/-- A pocket that leaves a state other than HELD for FAULTED, whatever lockout cause it records on the way. -/
theorem goFaulted_keepsCycles_of {f : Cycle → Cycle} (state : (b.pocket p).cycle.state ≠ .held)
    (hold : (f (b.pocket p).cycle).holdFrom = (b.pocket p).cycle.holdFrom) :
    b.KeepsCycles ((b.modCycle p f).goFaulted p) := by
  rw [goFaulted_eq, modCycle, modPocket_modPocket]
  exact b.modPocket_keepsCycles p fun fits => fits.enters state hold rfl rfl (by simp)

theorem goFaulted_keepsCycles (state : (b.pocket p).cycle.state ≠ .held) : b.KeepsCycles (b.goFaulted p) := by
  rw [goFaulted_eq]
  exact b.modPocket_keepsCycles p fun fits => fits.enters state rfl rfl rfl (by simp)

theorem enterIdle_keepsCycles_of {f : Cycle → Cycle} (state : (b.pocket p).cycle.state ≠ .held)
    (hold : (f (b.pocket p).cycle).holdFrom = (b.pocket p).cycle.holdFrom) :
    b.KeepsCycles ((b.modCycle p f).enterIdle p) := by
  rw [enterIdle_eq, modCycle, modPocket_modPocket]
  exact b.modPocket_keepsCycles p fun fits => fits.enters state hold rfl rfl (by simp)

theorem enterIdle_keepsCycles (state : (b.pocket p).cycle.state ≠ .held) : b.KeepsCycles (b.enterIdle p) := by
  rw [enterIdle_eq]
  exact b.modPocket_keepsCycles p fun fits => fits.enters state rfl rfl rfl (by simp)

/-- A lockout fault changes its own pocket alone, by the table of R41 (R43). -/
theorem lockoutFault_eq (k : Lockout) : b.lockoutFault p k = b.modPocket p (PocketUnit.lockedOut k) := by
  have stands : PocketUnit.lockedOut k (b.pocket p) = b.pocket p → b = b.modPocket p (PocketUnit.lockedOut k) :=
    fun same => (b.modPocket_id p).symm.trans (modPocket_congr same.symm)
  unfold lockoutFault
  split
  case isTrue recorded => exact stands (by simp [PocketUnit.lockedOut, recorded])
  case isFalse none =>
    split
    case h_5 state | h_6 state =>
      rw [goFaulted_eq, modCycle, modPocket_modPocket]
      exact modPocket_congr (by simp [PocketUnit.lockedOut, none, state])
    case h_7 state | h_8 state | h_9 state | h_10 state => exact stands (by simp [PocketUnit.lockedOut, none, state])
    case h_1 state | h_2 state | h_3 state | h_4 state => exact modPocket_congr (by simp [PocketUnit.lockedOut, none, state])

theorem lockoutFault_pocket_of_ne (k : Lockout) {q : Pocket} (e : q ≠ p) :
    (b.lockoutFault p k).pocket q = b.pocket q := by
  rw [lockoutFault_eq, modPocket_pocket_of_ne b e]

theorem entryLockout_pocket_of_ne {q : Pocket} (e : q ≠ p) : (b.entryLockout p).pocket q = b.pocket q := by
  unfold entryLockout
  split
  · rfl
  · split
    · rfl
    · exact b.lockoutFault_pocket_of_ne p _ e
    · rw [lockoutFault_pocket_of_ne _ p _ e]
      cases q <;> rfl

theorem lockoutFault_keepsCycles (k : Lockout) : b.KeepsCycles (b.lockoutFault p k) := by
  unfold lockoutFault
  split
  · exact .refl b
  · split
    case h_1 state | h_2 state | h_3 state =>
      refine b.modCycle_keepsCycles p fun fits => ?_
      exact fits.enters (by simp [state]) rfl rfl (fits.resume_none (by simp [state]) (by simp [state])) (by simp)
    case h_4 state => exact b.modCycle_keepsCycles p fun fits => fits.same rfl rfl rfl rfl (by simp [state])
    case h_5 state | h_6 state => exact b.goFaulted_keepsCycles_of p (by simp [state]) rfl
    all_goals exact .refl b

theorem entryLockout_keepsCycles : b.KeepsCycles (b.entryLockout p) := by
  have drawn : b.KeepsCycles { b with draws := b.draws + 1 } := .of_same rfl fun q => by cases q <;> rfl
  unfold entryLockout
  split
  · exact .refl b
  · split
    · exact .refl b
    · exact b.lockoutFault_keepsCycles p _
    · exact drawn.trans (lockoutFault_keepsCycles _ p _)

theorem answerDrumFault_keepsCycles : b.KeepsCycles (b.answerDrumFault p) := by
  unfold answerDrumFault
  split
  case h_1 state =>
    refine b.modCycle_keepsCycles p fun ⟨⟨target, _, _, _, targets, _⟩, heldIff⟩ => ?_
    exact ⟨⟨target, by simp [Cycle.recordLockout, state, CycleState.isActive],
      by simp [Cycle.recordLockout, state], by simp, targets, by simp, by simp [Cycle.recordLockout, state]⟩, heldIff⟩
  case h_2 state => exact b.modCycle_keepsCycles p fun fits => fits.same rfl rfl rfl rfl (by simp [state])
  case h_3 state _ => exact b.goFaulted_keepsCycles_of p state rfl

theorem drumFault_keepsCycles (k : DrumFault) : b.KeepsCycles (b.drumFault p k) :=
  ((b.modDrum_keepsCycles p _).trans (raiseCause_keepsCycles _ _)).trans (answerDrumFault_keepsCycles _ p)

/-- COOLING is entered from a state that has no resume state. -/
theorem enterCooling_keepsCycles (flag : Option EndFlag)
    (state : (b.pocket p).cycle.state ≠ .held ∧ (b.pocket p).cycle.state ≠ .paused) :
    b.KeepsCycles (b.enterCooling p flag) := by
  refine KeepsCycles.trans (b.modCycle_keepsCycles p fun fits => ?_) (entryLockout_keepsCycles _ p)
  exact fits.enters state.1 rfl rfl (fits.resume_none state.2 state.1) (by simp)

theorem pausePocket_keepsCycles (active : (b.pocket p).cycle.state.isActive = true) :
    b.KeepsCycles (b.pausePocket p) := by
  have state := Cycle.ne_held_of_active active
  unfold pausePocket
  split
  · exact b.goFaulted_keepsCycles p state
  case isFalse noLockout =>
    refine (KeepsCycles.trans (b.modCycle_keepsCycles p fun fits => ?_) (stopDrum_keepsCycles _ p)).trans
      (entryLockout_keepsCycles _ p)
    obtain ⟨t, resume, isTarget⟩ := fits.resumeState_of_active active
    exact fits.aims state rfl isTarget (.inr ⟨rfl, rfl, resume, by simpa using noLockout⟩)

/-- DONE and CREASE_GUARD are entered from states that have neither start target nor resume state. -/
theorem enterDone_keepsCycles (state : (b.pocket p).cycle.state ≠ .held ∧ (b.pocket p).cycle.state ≠ .paused ∧
    (b.pocket p).cycle.state ≠ .starting) : b.KeepsCycles (b.enterDone p) := by
  obtain ⟨notHeld, notPaused, notStarting⟩ := state
  refine (KeepsCycles.trans (b.modCycle_keepsCycles p fun fits => ?_) (stopDrum_keepsCycles _ p)).trans
    (raiseCause_keepsCycles _ _)
  exact fits.enters notHeld rfl (fits.startTarget_none notStarting) (fits.resume_none notPaused notHeld) (by simp)

theorem enterCreaseGuard_keepsCycles (state : (b.pocket p).cycle.state ≠ .held ∧ (b.pocket p).cycle.state ≠ .paused ∧
    (b.pocket p).cycle.state ≠ .starting) : b.KeepsCycles (b.enterCreaseGuard p) := by
  obtain ⟨notHeld, notPaused, notStarting⟩ := state
  refine ((KeepsCycles.trans (b.modCycle_keepsCycles p fun fits => ?_) (stopDrum_keepsCycles _ p)).trans
    (modDrum_keepsCycles _ p _)).trans (entryLockout_keepsCycles _ p)
  exact fits.enters notHeld rfl (fits.startTarget_none notStarting) (fits.resume_none notPaused notHeld) (by simp)

theorem coolEnd_keepsCycles (state : (b.pocket p).cycle.state = .cooling) : b.KeepsCycles (b.coolEnd p) := by
  unfold coolEnd
  dsimp only
  split
  · exact b.goFaulted_keepsCycles p (by simp [state])
  · split
    · exact b.enterIdle_keepsCycles p (by simp [state])
    · split
      · exact b.enterCreaseGuard_keepsCycles p (by simp [state])
      · exact b.enterDone_keepsCycles p (by simp [state])

theorem judgeTimeLimit_keepsCycles : b.KeepsCycles (b.judgeTimeLimit p) := by
  unfold judgeTimeLimit
  dsimp only
  split
  · split
    case h_1 state => exact b.enterCooling_keepsCycles p _ (by simp [state])
    case h_2 state => exact b.enterCooling_keepsCycles p _ (by simp [state])
    · exact .refl b
  · exact .refl b

theorem runReport_keepsCycles : b.KeepsCycles (b.runReport p) := by
  unfold runReport
  dsimp only
  split
  case isTrue starting =>
    refine (KeepsCycles.trans (b.modCycle_keepsCycles p fun fits => ?_) (entryLockout_keepsCycles _ p)).trans
      (judgeTimeLimit_keepsCycles _ p)
    obtain ⟨⟨target, -, -, -, targets, -⟩, -⟩ := id fits
    obtain ⟨t, ht⟩ := Option.isSome_iff_exists.1 (target.2 starting)
    have isTarget := targets t ht
    refine fits.enters (by simp [starting]) rfl rfl (fits.resume_none (by simp [starting]) (by simp [starting])) ?_
    rw [ht]
    cases t <;> simp [CycleState.isTarget] at isTarget ⊢
  · exact .refl b

theorem dryReport_keepsCycles (e : Nat) : b.KeepsCycles (b.dryReport p e) := by
  unfold dryReport
  dsimp only
  split
  case isTrue drying =>
    obtain ⟨drying, -⟩ := drying
    split
    · refine KeepsCycles.trans (b.modCycle_keepsCycles p fun fits => ?_) (enterCooling_keepsCycles _ p _ (by simp [drying]))
      exact fits.same rfl rfl rfl rfl fun _ => rfl
    · refine KeepsCycles.trans (b.modCycle_keepsCycles p fun fits => ?_) (entryLockout_keepsCycles _ p)
      exact fits.enters (by simp [drying]) rfl (fits.startTarget_none (by simp [drying]))
        (fits.resume_none (by simp [drying]) (by simp [drying])) (by simp)
  · exact .refl b

theorem tangleReport_keepsCycles : b.KeepsCycles (b.tangleReport p) := by
  unfold tangleReport
  split
  case h_1 state | h_2 state | h_3 state => exact b.pausePocket_keepsCycles p (by rw [state]; rfl)
  · exact .refl b

theorem doorOpens_keepsCycles : b.KeepsCycles (b.doorOpens p) := by
  unfold doorOpens
  split
  case h_1 state | h_2 state | h_3 state | h_4 state => exact b.pausePocket_keepsCycles p (by rw [state]; rfl)
  case h_5 state | h_6 state => exact b.enterIdle_keepsCycles p (by simp [state])
  all_goals exact .refl b

theorem lintRemoved_keepsCycles : b.KeepsCycles (b.lintRemoved p) := by
  unfold lintRemoved
  split
  case h_1 state | h_2 state | h_3 state | h_4 state => exact b.pausePocket_keepsCycles p (by rw [state]; rfl)
  · exact .refl b

theorem reloadFreshness_keepsCycles : b.KeepsCycles (b.reloadFreshness p) := by
  refine b.modCycle_keepsCycles p fun fits => ?_
  exact fits.same rfl rfl rfl rfl fun _ => rfl

theorem panelStopPocket_keepsCycles : b.KeepsCycles (b.panelStopPocket p) := by
  have stop : (b.pocket p).cycle.state ≠ .held →
      b.KeepsCycles (if (b.pocket p).cycle.lockout.isSome then b.goFaulted p else b.enterIdle p) := fun state => by
    split
    · exact b.goFaulted_keepsCycles p state
    · exact b.enterIdle_keepsCycles p state
  unfold panelStopPocket
  split
  case h_1 state | h_2 state | h_3 state | h_4 state | h_5 state | h_6 state => exact stop (by simp [state])
  all_goals exact .refl b

theorem panelStop_keepsCycles : b.KeepsCycles b.panelStop :=
  ((b.setContacts_keepsCycles { b.contacts with chord := .spent }).trans (panelStopPocket_keepsCycles _ .a)).trans
    (panelStopPocket_keepsCycles _ .b)

theorem judgeChord_keepsCycles : b.KeepsCycles b.judgeChord := by
  unfold judgeChord
  split
  · exact b.panelStop_keepsCycles
  · exact .refl b

/-! ### The drum drive -/

theorem beginAllowance_keepsCycles : b.KeepsCycles (b.beginAllowance p) := b.modLoad_keepsCycles _

theorem trySpinUp_keepsCycles : b.KeepsCycles (b.trySpinUp p) := by
  unfold trySpinUp
  dsimp only
  split
  · split
    · exact b.drumFault_keepsCycles p _
    · exact (b.modDrum_keepsCycles p _).trans (beginAllowance_keepsCycles _ p)
  · exact .refl b

theorem runRequest_keepsCycles : b.KeepsCycles (b.runRequest p) :=
  (b.modDrum_keepsCycles p _).trans (trySpinUp_keepsCycles _ p)

theorem burstRequest_keepsCycles : b.KeepsCycles (b.burstRequest p) :=
  (b.modDrum_keepsCycles p _).trans (trySpinUp_keepsCycles _ p)

theorem judgeRunEnd_keepsCycles : b.KeepsCycles (b.judgeRunEnd p) := by
  unfold judgeRunEnd
  dsimp only
  split
  · split
    · exact b.modDrum_keepsCycles p _
    · exact .refl b
  · exact .refl b

theorem enterRun_keepsCycles : b.KeepsCycles (b.enterRun p) := by
  unfold enterRun
  dsimp only
  split
  · exact ((b.modDrum_keepsCycles p _).trans (runReport_keepsCycles _ p)).trans (judgeRunEnd_keepsCycles _ p)
  · exact (b.modDrum_keepsCycles p _).trans (judgeRunEnd_keepsCycles _ p)

theorem enterStopped_keepsCycles : b.KeepsCycles (b.enterStopped p) :=
  ((b.modDrum_keepsCycles p _).trans (judgeChord_keepsCycles _)).trans (trySpinUp_keepsCycles _ p)

theorem judgeCoast_keepsCycles : b.KeepsCycles (b.judgeCoast p) := by
  unfold judgeCoast
  dsimp only
  split
  · exact b.enterStopped_keepsCycles p
  · exact .refl b

theorem tangleEvent_keepsCycles : b.KeepsCycles (b.tangleEvent p) := by
  have tangled : b.KeepsCycles (b.modPocket p fun u =>
      { u with drum := { u.drum.endRun u.tuning with tangles := min 4 (u.drum.tangles + 1), drag := 0 } }) :=
    b.modPocket_keepsCycles p id
  unfold tangleEvent
  dsimp only
  split
  · exact (tangled.trans (raiseCause_keepsCycles _ _)).trans (tangleReport_keepsCycles _ p)
  · exact tangled

theorem judgeDrag_keepsCycles : b.KeepsCycles (b.judgeDrag p) := by
  unfold judgeDrag
  dsimp only
  split
  · split
    · exact b.tangleEvent_keepsCycles p
    · exact b.modDrum_keepsCycles p _
  · exact b.modDrum_keepsCycles p _

theorem judgePulse_keepsCycles : b.KeepsCycles (b.judgePulse p) := by
  unfold judgePulse
  dsimp only
  split
  · split
    · exact b.enterRun_keepsCycles p
    · exact .refl b
  · exact b.judgeDrag_keepsCycles p
  · exact .refl b
  · exact .refl b

theorem pulse_keepsCycles : b.KeepsCycles (b.pulse p) := by
  unfold pulse
  dsimp only
  split
  · exact (b.modDrum_keepsCycles p _).trans (judgePulse_keepsCycles _ p)
  · exact b.modDrum_keepsCycles p _

theorem silenceReached_keepsCycles : b.KeepsCycles (b.silenceReached p) := by
  unfold silenceReached
  dsimp only
  split
  · exact (b.modDrum_keepsCycles p _).trans (trySpinUp_keepsCycles _ p)
  · exact (b.modDrum_keepsCycles p _).trans (judgeCoast_keepsCycles _ p)
  · exact (b.modDrum_keepsCycles p _).trans (drumFault_keepsCycles _ p _)
  · exact b.modDrum_keepsCycles p _

theorem coastLimit_keepsCycles : b.KeepsCycles (b.coastLimit p) := by
  unfold coastLimit
  dsimp only
  split
  · exact (b.modDrum_keepsCycles p _).trans (judgeCoast_keepsCycles _ p)
  · exact (b.modDrum_keepsCycles p _).trans (drumFault_keepsCycles _ p _)

/-! ### Takes -/

theorem answerAction_keepsCycles (a : Action) : b.KeepsCycles (b.answerAction p a).2 := by
  cases a with
  | start =>
    have started : (b.pocket p).cycle.state ≠ .held →
        b.KeepsCycles ((b.modPocket p (PocketUnit.startCycle b.freshSeconds)).runRequest p) := fun state => by
      refine KeepsCycles.trans (b.modPocket_keepsCycles p fun fits => ?_) (runRequest_keepsCycles _ p)
      exact fits.aims (t := .drying) state rfl rfl (.inl ⟨rfl, rfl, rfl⟩)
    show b.KeepsCycles (b.answerStart p).2
    unfold answerStart
    split
    case h_1 state | h_2 state =>
      split
      · exact started (by simp [state])
      · exact .refl b
    · exact .refl b
  | pause =>
    show b.KeepsCycles (b.answerPause p).2
    unfold answerPause
    split
    case isTrue active => exact b.pausePocket_keepsCycles p active
    · exact .refl b
  | resume =>
    show b.KeepsCycles (b.answerResume p).2
    unfold answerResume
    split
    case isTrue ready =>
      obtain ⟨paused, -⟩ := ready
      refine KeepsCycles.trans (b.modCycle_keepsCycles p fun fits => ?_) (runRequest_keepsCycles _ p)
      obtain ⟨⟨-, resume, -, -, -, resumes, -⟩, -⟩ := id fits
      obtain ⟨t, ht⟩ := Option.isSome_iff_exists.1 (resume.2 (.inl paused))
      exact fits.aims (by simp [paused]) rfl (resumes t ht) (.inl ⟨rfl, ht, rfl⟩)
    · exact .refl b
  | advance =>
    show b.KeepsCycles (b.answerAdvance p).2
    unfold answerAdvance
    split
    case isTrue heating =>
      refine b.enterCooling_keepsCycles p _ ⟨?_, ?_⟩ <;> (intro state; simp [state, CycleState.heating] at heating)
    · exact .refl b
  | abort =>
    show b.KeepsCycles (b.answerAbort p).2
    unfold answerAbort
    split
    case h_1 state | h_2 state | h_3 state => exact b.enterCooling_keepsCycles p _ (by simp [state])
    case h_4 =>
      dsimp only
      exact b.modCycle_keepsCycles p fun fits => fits.same rfl rfl rfl rfl fun _ => rfl
    case h_5 state | h_6 state => exact b.enterIdle_keepsCycles_of p (by simp [state]) rfl
    all_goals exact .refl b
  | clear =>
    show b.KeepsCycles (b.answerClear p).2
    have idle : ∀ lockout : Cycle → Option Lockout, (b.pocket p).cycle.state = .done ∨ (b.pocket p).cycle.state = .faulted →
        b.KeepsCycles (b.modCycle p fun c => { c with state := .idle, lockout := lockout c }) :=
      fun lockout state => b.modCycle_keepsCycles p fun fits => by
        have notHeld : (b.pocket p).cycle.state ≠ .held := by obtain s | s := state <;> simp [s]
        have target := fits.startTarget_none (by obtain s | s := state <;> simp [s])
        have resume := fits.resume_none (by obtain s | s := state <;> simp [s]) notHeld
        exact fits.enters notHeld rfl target resume (by simp)
    unfold answerClear
    dsimp only
    split
    case h_1 state => exact idle Cycle.lockout (.inl state)
    case h_2 state =>
      split
      · split
        · exact idle (fun _ => none) (.inr state)
        · exact .refl b
      · exact idle (fun _ => none) (.inr state)
    · exact .refl b

theorem answerCode_keepsCycles (code : Nat) : b.KeepsCycles (b.answerCode p code).2 := by
  unfold answerCode
  split
  · exact .refl b
  · split
    · exact .refl b
    · split
      · exact .refl b
      · exact b.answerAction_keepsCycles p _

theorem judgeCoolingTake_keepsCycles (taken : List PocketField) : b.KeepsCycles (b.judgeCoolingTake p taken) := by
  unfold judgeCoolingTake
  extract_lets u byTime byTemp
  split
  case isTrue cooling => exact b.coolEnd_keepsCycles p cooling.1
  · exact .refl b

theorem deliver_keepsCycles (j : Judged) : b.KeepsCycles (b.deliver p j) := by
  have tuned : b.KeepsCycles (b.modPocket p fun u => { u with tuning := j.tuning }) := b.modPocket_keepsCycles p id
  have given : ∀ {c d : Blocks} (go : Bool), b.KeepsCycles c → c.KeepsCycles d →
      b.KeepsCycles (if go then d else c) := fun go h k => by
    split
    · exact h.trans k
    · exact h
  unfold deliver
  extract_lets b₀ b₁ b₂ b₃ b₄
  have k₁ : b.KeepsCycles b₁ := given _ tuned (judgeTimeLimit_keepsCycles _ p)
  have k₂ : b.KeepsCycles b₂ := k₁.trans (judgeCoolingTake_keepsCycles _ p _)
  have k₃ : b.KeepsCycles b₃ := given _ k₂ (judgeRunEnd_keepsCycles _ p)
  have k₄ : b.KeepsCycles b₄ := given _ k₃ (judgeCoast_keepsCycles _ p)
  exact given _ k₄ (evaluateWants_keepsCycles _ p)

theorem raiseTake_keepsCycles (r : TakeResult) : b.KeepsCycles (b.raiseTake r) := by
  unfold raiseTake
  split
  · exact b.raiseCause_keepsCycles _
  · exact .refl b

theorem pocketTaken_keepsCycles (st : Staging) (seq : Byte) : b.KeepsCycles (b.pocketTaken p st seq) := by
  unfold pocketTaken
  dsimp only
  refine KeepsCycles.trans ?_ ((reloadFreshness_keepsCycles _ p).trans (raiseTake_keepsCycles _ _))
  split
  · exact (b.deliver_keepsCycles p _).trans (answerCode_keepsCycles _ p _)
  · exact b.deliver_keepsCycles p _

theorem pendAgain_keepsCycles (acked : BitVec 16) (causes : List Cause) : b.KeepsCycles (pendAgain acked causes b) := by
  induction causes generalizing b with
  | nil => exact .refl b
  | cons k rest ih =>
    unfold pendAgain
    refine KeepsCycles.trans ?_ (ih _)
    split
    · exact b.makePending_keepsCycles k
    · exact .refl b

theorem commonTaken_keepsCycles (j : CommonJudged) (r : TakeResult) : b.KeepsCycles (b.commonTaken j r) := by
  have enabled : b.KeepsCycles (b.setEnabled j.enable) := by
    unfold setEnabled
    split
    · exact b.setAlerts_keepsCycles _
    · exact .refl b
  have cleared : ∀ c : Blocks, c.KeepsCycles (c.clearFaults j.clearList) := fun c => by
    unfold clearFaults
    split
    · exact c.setAlerts_keepsCycles _
    · exact .refl c
  have acked : ∀ c : Blocks, c.KeepsCycles (c.ackWhole j.ack) := fun c => by
    unfold ackWhole
    split
    · exact (c.setAlerts_keepsCycles _).trans (pendAgain_keepsCycles _ _ _)
    · exact .refl c
  have supplied : ∀ c : Blocks, c.KeepsCycles (c.setSupply j.supply) := fun c => by
    unfold setSupply
    split
    · exact c.modLoad_keepsCycles _
    · exact .refl c
  exact (((enabled.trans (cleared _)).trans (acked _)).trans (supplied _)).trans (raiseTake_keepsCycles _ r)

/-! ### Events -/

theorem lockoutAfter_keepsCycles (k : Cause) (l : Lockout) : b.KeepsCycles ((b.raiseCause k).lockoutFault p l) :=
  (b.raiseCause_keepsCycles k).trans (lockoutFault_keepsCycles _ p l)

theorem exhaustUpdated_keepsCycles (before : Bool) : b.KeepsCycles (b.exhaustUpdated p before) := by
  unfold exhaustUpdated
  extract_lets b₁ b₂ cool
  have k₁ : b.KeepsCycles b₁ := by
    dsimp only [b₁]
    split
    · exact b.lockoutAfter_keepsCycles p _ _
    · exact .refl b
  have k₂ : b.KeepsCycles b₂ := k₁.trans (evaluateWants_keepsCycles _ p)
  split
  case isTrue cooling => exact k₂.trans (coolEnd_keepsCycles _ p cooling.1)
  · exact k₂

theorem filteredUpdate_keepsCycles (ch : Sensor) (t : Int) (f : Channel → Channel) :
    b.KeepsCycles (b.filteredUpdate ch t f) := by
  have entered := b.modChannel_keepsCycles ch fun c => f (c.update t)
  cases ch with
  | exhaust q => exact entered.trans (exhaustUpdated_keepsCycles _ q _)
  | inlet => exact entered

theorem faultChannel_keepsCycles (ch : Sensor) (side : Side) : b.KeepsCycles (b.faultChannel ch side) := by
  have faulted := b.modChannel_keepsCycles ch fun c => { c with fault := some side, bad := 3, good := 0, ring := [] }
  cases ch with
  | exhaust q => exact faulted.trans (lockoutAfter_keepsCycles _ q _ _)
  | inlet => exact faulted

theorem takeSample_keepsCycles (ch : Sensor) (raw : Nat) : b.KeepsCycles (b.takeSample ch raw) := by
  have kept := b.modChannel_keepsCycles ch fun c => { c with lastRaw := raw }
  unfold takeSample
  dsimp only
  split
  · split
    · exact kept.trans (filteredUpdate_keepsCycles _ ch _ _)
    · split
      · exact kept.trans (faultChannel_keepsCycles _ ch _)
      · exact kept.trans (modChannel_keepsCycles _ ch _)
  · split
    · split
      · exact kept.trans (filteredUpdate_keepsCycles _ ch _ _)
      · exact kept.trans (modChannel_keepsCycles _ ch _)
    · exact kept.trans (modChannel_keepsCycles _ ch _)

theorem gatedSample_keepsCycles (v : Nat) : b.KeepsCycles (b.gatedSample p v) := by
  unfold gatedSample completeWindow
  extract_lets u hit c w
  have completed : b.KeepsCycles c := b.modPocket_keepsCycles p id
  split
  · exact b.modDryness_keepsCycles p _
  · split
    · exact completed.trans (dryReport_keepsCycles _ p _)
    · exact completed

theorem judgeAmplitude_keepsCycles (amp : Nat) : b.KeepsCycles (b.judgeAmplitude amp) := by
  unfold judgeAmplitude
  dsimp only
  split
  · split
    · split
      · exact (b.modMains_keepsCycles _).trans (present_keepsCycles _ _)
      · exact b.modMains_keepsCycles _
    · exact b.modMains_keepsCycles _
  · split
    · split
      · exact (b.modMains_keepsCycles _).trans (setAlerts_keepsCycles _ _)
      · exact b.modMains_keepsCycles _
    · exact b.modMains_keepsCycles _
  · exact .refl b

theorem crossing_keepsCycles : b.KeepsCycles b.crossing := by
  have switched := b.modLoad_keepsCycles fun l => l.switchOutputs l.grants
  unfold crossing
  dsimp only
  refine KeepsCycles.trans ?_ (modMains_keepsCycles _ _)
  split
  · exact switched.trans (modMains_keepsCycles _ _)
  · split
    · exact (switched.trans (modMains_keepsCycles _ _)).trans (judgeAmplitude_keepsCycles _ _)
    · exact switched

theorem loseMains_keepsCycles : b.KeepsCycles b.loseMains := by
  unfold loseMains
  dsimp only
  split
  · exact ((b.modLoad_keepsCycles _).trans (modMains_keepsCycles _ _)).trans (present_keepsCycles _ _)
  · exact (b.modLoad_keepsCycles _).trans (modMains_keepsCycles _ _)

theorem chordChanged_keepsCycles : b.KeepsCycles b.chordChanged := by
  unfold chordChanged
  split
  case h_4 => exact .refl b
  all_goals exact b.setContacts_keepsCycles _

theorem handChange_keepsCycles (f : InputFunction) (was now : Level) : b.KeepsCycles (b.handChange f was now) := by
  unfold handChange
  split
  case h_1 =>
    split
    · exact b.doorOpens_keepsCycles _
    · exact .refl b
  case h_2 =>
    split
    · exact b.lintRemoved_keepsCycles _
    · exact .refl b
  case h_3 =>
    unfold cutoutChanged
    split
    · exact b.setAlerts_keepsCycles _
    · split
      · exact (b.present_keepsCycles _).trans (lockoutFault_keepsCycles _ _ _)
      · exact b.present_keepsCycles _
  case h_4 =>
    unfold beltChanged
    split
    · exact b.drumFault_keepsCycles _ _
    · exact .refl b
  case h_5 => exact b.chordChanged_keepsCycles
  all_goals exact .refl b

/-! ### Hold -/

theorem holdStages_keepsCycles : b.KeepsCycles (b.holdStages p) := by
  unfold holdStages
  split
  · exact b.modPocket_keepsCycles p id
  · exact .refl b

/-- Entry to hold puts both contexts into HELD (R46). -/
theorem enterHold_cyclesFit (held : b.held = false) (fits : b.CyclesFit) :
    (({ b with held := true } : Blocks).holdPocket .a |>.holdPocket .b).CyclesFit := by
  have entered : ∀ p, (((b.pocket p).cycle.enterHeld)).Fits true := fun p => by
    have context := fits p
    rw [held] at context
    exact context.enterHeld
  intro p
  cases p
  · exact entered .a
  · exact entered .b

theorem landFromHold_fits (free : b.held = false) (landed : (b.pocket p).cycle.Landed) (q : Pocket)
    (other : q ≠ p → (b.pocket q).cycle.Fits false) : ((b.landFromHold p).pocket q).cycle.Fits false := by
  -- a change of the pocket itself leaves the other one
  have own : ∀ f : PocketUnit → PocketUnit, (f (b.pocket p)).cycle.Fits false →
      ((b.modPocket p f).pocket q).cycle.Fits false := fun f fits => by
    by_cases e : q = p
    · subst e; rw [b.modPocket_pocket]; exact fits
    · rw [b.modPocket_pocket_of_ne e]; exact other e
  have stays : (b.pocket p).cycle.Fits false → (b.pocket q).cycle.Fits false := fun fits => by
    by_cases e : q = p
    · subst e; exact fits
    · exact other e
  unfold landFromHold
  split
  case h_1 paused =>
    split
    · rw [goFaulted_eq]
      exact own _ (landed.enters rfl rfl rfl (by simp))
    case isFalse noLockout =>
      have fits := stays (landed.fits fun _ => by simpa using noLockout)
      have keeps := (b.entryLockout_keepsCycles p).fits q
      rw [free] at keeps
      exact keeps fits
  case h_2 done =>
    split
    · exact stays (landed.fits (by simp [done]))
    · rw [enterIdle_eq]
      exact own _ (landed.enters rfl rfl rfl (by simp))
  case h_3 notPaused _ => exact stays (landed.fits fun paused => absurd paused notPaused)

/-- A pocket leaves HELD by R47's table. -/
theorem releasePocket_fits (free : b.held = false) (lawful : (b.pocket p).cycle.Lawful) (q : Pocket)
    (other : q ≠ p → (b.pocket q).cycle.Fits false) : ((b.releasePocket p).pocket q).cycle.Fits false := by
  unfold releasePocket
  extract_lets c b₁ b₂
  split
  case isTrue held =>
    have cycles : ∀ q, (b₂.pocket q).cycle = (b₁.pocket q).cycle := fun q => by
      dsimp only [b₂]
      split
      · rw [raiseCause, makePending_pocket]
      · rfl
    have free₂ : b₂.held = false := by
      have same : b₂.held = b₁.held := by
        dsimp only [b₂]
        split
        · exact (b₁.raiseCause_keepsCycles _).held
        · rfl
      rw [same, b.modCycle_held]
      exact free
    refine b₂.landFromHold_fits p free₂ ?_ q fun e => ?_
    · rw [cycles, b.modCycle_pocket]
      exact lawful.landed held _
    · rw [cycles]
      dsimp only [b₁]
      rw [modCycle, b.modPocket_pocket_of_ne e]
      exact other e
  case isFalse notHeld =>
    by_cases e : q = p
    · subst e
      exact ⟨lawful, by simpa using notHeld⟩
    · exact other e

/-- A release changes its own pocket alone. -/
theorem releasePocket_pocket_of_ne {q : Pocket} (e : q ≠ p) : (b.releasePocket p).pocket q = b.pocket q := by
  have landed : ∀ c : Blocks, (c.landFromHold p).pocket q = c.pocket q := fun c => by
    unfold landFromHold
    split
    · split
      · rw [goFaulted_eq, modPocket_pocket_of_ne c e]
      · exact c.entryLockout_pocket_of_ne p e
    · split
      · rfl
      · rw [enterIdle_eq, modPocket_pocket_of_ne c e]
    · rfl
  unfold releasePocket
  dsimp only
  split
  · rw [landed]
    split
    · rw [raiseCause, makePending_pocket]
      exact b.modPocket_pocket_of_ne e _
    · exact b.modPocket_pocket_of_ne e _
  · rfl

theorem releasePocket_held : (b.releasePocket p).held = b.held := (b.releasePocket_frame (P := fun _ => False) p).held

/-- Release takes both contexts out of HELD (R47). -/
theorem leaveHold_cyclesFit (fits : b.CyclesFit) :
    (({ b with held := false } : Blocks).releasePocket .a |>.releasePocket .b).CyclesFit := by
  have lawful : ∀ p, (({ b with held := false } : Blocks).pocket p).cycle.Lawful := fun p => by
    cases p
    · exact (fits .a).1
    · exact (fits .b).1
  -- the release of pocket A leaves pocket B lawful, which then lands itself
  have first : ∀ q, q ≠ .b → ((({ b with held := false } : Blocks).releasePocket .a).pocket q).cycle.Fits false :=
    fun q e => releasePocket_fits _ .a rfl (lawful .a) q fun e' => by cases q <;> contradiction
  have second : ((({ b with held := false } : Blocks).releasePocket .a).pocket .b).cycle.Lawful := by
    rw [releasePocket_pocket_of_ne _ .a (by decide)]
    exact lawful .b
  intro p
  rw [releasePocket_held, releasePocket_held]
  exact releasePocket_fits _ .b (releasePocket_held _ _) second p (first p)

end

/-! ### All changes -/

theorem Quiet.keepsCycles {b c : Blocks} (h : b.Quiet c) : b.KeepsCycles c := by
  cases h with
  | draws n => exact .of_same rfl fun q => by cases q <;> rfl
  | freshness p => exact b.reloadFreshness_keepsCycles p
  | lastSample p v => exact b.modDryness_keepsCycles p _
  | peak v => exact b.modMains_keepsCycles _
  | held i high => exact b.setContacts_keepsCycles _
  | forced causes => exact b.setAlerts_keepsCycles _

theorem PathStep.keepsCycles {b c : Blocks} (h : b.PathStep c) : b.KeepsCycles c := by
  cases h with
  | quiet h => exact h.keepsCycles
  | pocket p st seq => exact (b.pocketTaken_keepsCycles p st seq).trans (settle_keepsCycles _)
  | common j r => exact (b.commonTaken_keepsCycles j r).trans (settle_keepsCycles _)

theorem Happens.cyclesFit {b c : Blocks} (h : b.Happens c) (fits : b.CyclesFit) : c.CyclesFit := by
  cases h with
  | timeLimit p => exact (b.judgeTimeLimit_keepsCycles p).cyclesFit fits
  | extensionEnd p state => exact (b.enterCooling_keepsCycles p _ (by simp [state])).cyclesFit fits
  | coolTime p state => exact (b.coolEnd_keepsCycles p state).cyclesFit fits
  | burst p =>
    refine KeepsCycles.cyclesFit ?_ fits
    exact (b.modCycle_keepsCycles p fun fits => fits.same rfl rfl rfl rfl fun _ => rfl).trans
      (burstRequest_keepsCycles _ p)
  | guardEnd p state => exact (b.enterDone_keepsCycles p (by simp [state])).cyclesFit fits
  | stale p =>
    refine KeepsCycles.cyclesFit ?_ fits
    exact (b.modCycle_keepsCycles p fun fits => fits.same rfl rfl rfl rfl fun _ => rfl).trans
      (lockoutAfter_keepsCycles _ p _ _)
  | pulse p i high => exact ((b.setContacts_keepsCycles _).trans (pulse_keepsCycles _ p)).cyclesFit fits
  | silence p => exact (b.silenceReached_keepsCycles p).cyclesFit fits
  | spinupFail p => exact ((b.modDrum_keepsCycles p _).trans (drumFault_keepsCycles _ p _)).cyclesFit fits
  | runEnd p => exact (b.judgeRunEnd_keepsCycles p).cyclesFit fits
  | coastEnd p => exact (b.judgeCoast_keepsCycles p).cyclesFit fits
  | noStop p => exact (b.coastLimit_keepsCycles p).cyclesFit fits
  | sample ch raw => exact (b.takeSample_keepsCycles ch raw).cyclesFit fits
  | dwellEnd st => exact (b.modStage_keepsCycles st _).cyclesFit fits
  | allowanceEnd p => exact (b.modLoad_keepsCycles _).cyclesFit fits
  | pacing => exact (b.modLoad_keepsCycles _).cyclesFit fits
  | notBefore st => exact (b.modLoad_keepsCycles _).cyclesFit fits
  | crossing v => exact ((b.modMains_keepsCycles _).trans (crossing_keepsCycles _)).cyclesFit fits
  | mainsLost => exact b.loseMains_keepsCycles.cyclesFit fits
  | gated p v => exact ((b.modDryness_keepsCycles p _).trans (gatedSample_keepsCycles _ p v)).cyclesFit fits
  | input i high f was now => exact ((b.setContacts_keepsCycles _).trans (handChange_keepsCycles _ f was now)).cyclesFit fits
  | chord => exact b.panelStop_keepsCycles.cyclesFit fits
  | hold held =>
    refine KeepsCycles.cyclesFit ?_ (b.enterHold_cyclesFit held fits)
    exact ((holdStages_keepsCycles _ .a).trans (holdStages_keepsCycles _ .b)).trans (raiseCause_keepsCycles _ _)
  | release =>
    refine KeepsCycles.cyclesFit ?_ (b.leaveHold_cyclesFit fits)
    exact ((trySpinUp_keepsCycles _ .a).trans (trySpinUp_keepsCycles _ .b)).trans (raiseCause_keepsCycles _ _)

/-- Every command that is no reset keeps the contexts. -/
theorem Becomes.cyclesFit {b c : Blocks} (h : b.Becomes c) (fits : b.CyclesFit) : c.CyclesFit := by
  cases h with
  | path h =>
    induction h with
    | refl => exact fits
    | tail _ step ih => exact step.keepsCycles.cyclesFit ih
  | event h => exact (settle_keepsCycles _).cyclesFit (h.cyclesFit fits)

theorem tick_keepsCycles (b : Blocks) (pins : Pins) (n : Nat) : b.KeepsCycles { b.tick pins with draws := n } := by
  refine ⟨(b.tick_rest pins).2.2.1, fun p fits => ?_⟩
  have pocket : ({ b.tick pins with draws := n } : Blocks).pocket p = (b.tick pins).pocket p := by cases p <;> rfl
  rw [pocket, b.tick_pocket]
  obtain ⟨_, _, _, _, _, _, _, counted⟩ := PocketUnit.passed_cycle (atMultiple (b.clock + 1) 1000)
    (atMultiple (b.clock + 1) 1000000) (b.load.heats p) (b.pocket p)
  rw [counted]
  exact fits.same rfl rfl rfl rfl fun _ => rfl

theorem reset_cyclesFit : Cycle.reset.Fits false := by
  unfold Cycle.Fits Cycle.Lawful
  simp [Cycle.reset]

end Blocks

/-- Settles O7: every entry to a state removes and sets the optional items as R18 has them; hold and release take both
pockets into HELD and out of it. -/
theorem everyStepKeepsCycleLaw : Obligations.EveryStepKeepsCycleLaw := by
  intro s t law stepped
  show t.blocks.CyclesFit
  obtain ⟨turns, -⟩ | ⟨-, -, -, n, blocks⟩ := step_does stepped
  · cases turns with
    | goesOn _ becomes => exact becomes.cyclesFit law
    | stops _ blocks =>
      obtain same | ⟨n, off⟩ := blocks
      · rw [same]; exact law
      · rw [off]
        intro p
        rw [Blocks.deEnergise_pocket]
        cases p
        · exact law .a
        · exact law .b
    | starts _ row k blocks =>
      obtain ⟨a, alertsOnly⟩ := s.blocks.afterReset_alertsOnly row k
      rw [blocks]
      intro p
      rw [Blocks.afterReset_pocket, alertsOnly]
      exact Blocks.reset_cyclesFit
  · rw [blocks]
    exact (s.blocks.tick_keepsCycles s.pins n).cyclesFit law

end Sys2Proof.Machine
end

section
/-! SUPPORT. The step itself: the front of the queue, and one clock cycle on an empty one (section 5.8; log entry 3). -/

namespace Sys2Proof.Machine

/-- Settles O1, by the definition of the step. -/
theorem stepRunsFrontCommand : Obligations.StepRunsFrontCommand := by
  intro s c rest front
  rw [step, front]

/-- Settles O9: the reset values meet every law, each by its own reset lemma. -/
theorem resetMeetsEveryLaw : Obligations.ResetMeetsEveryLaw := by
  refine ⟨rfl, fun _ => Blocks.heatSettled_of_reset rfl rfl rfl, fun p => ?_, Alerts.reset_lawful, fun p => ?_⟩
  · cases p <;> exact Dryness.reset_lawful
  · cases p <;> exact Blocks.reset_cyclesFit

/-! ## The order in which events join the queue (log entry 4) -/

/-- A shuffle holds what the list holds. -/
theorem shuffle_perm {α : Type} (fuel draws : Nat) (l : List α) : (shuffle fuel draws l).1.Perm l := by
  induction fuel generalizing draws l with
  | zero => exact .refl l
  | succ fuel ih =>
    rw [shuffle]
    split
    · exact .refl l
    · dsimp only
      split
      · exact .refl l
      · rename_i x found
        obtain ⟨inside, rfl⟩ := List.getElem?_eq_some_iff.1 found
        exact ((ih _ _).cons _).trans (List.getElem_cons_eraseIdx_perm inside)

theorem mem_due {on : Bool} {c d : Instr} : c ∈ due on d ↔ on = true ∧ c = d := by
  unfold due
  split <;> simp_all

theorem atMultiple_iff {t every : Nat} : atMultiple t every = true ↔ t % every = 0 := by simp [atMultiple]

theorem atMultiple_eq_decide (t every : Nat) : atMultiple t every = decide (t % every = 0) := by
  rw [Bool.eq_iff_iff, atMultiple_iff, decide_eq_true_iff]

theorem satSucc_eq_min (limit v : Nat) : satSucc limit v = min limit (v + 1) := by
  unfold satSucc
  split <;> omega

theorem CycleState.heating_iff {s : CycleState} : s.heating = true ↔ s = .drying ∨ s = .extending := by
  cases s <;> simp [CycleState.heating]

theorem CycleState.countsFreshness_iff {s : CycleState} :
    s.countsFreshness = true ↔
      s = .starting ∨ s = .drying ∨ s = .extending ∨ s = .cooling ∨ s = .creaseGuard ∨ s = .paused := by
  cases s <;> simp [CycleState.countsFreshness]

/-! ## What falls due (R31 to R146) -/

section

variable {c : Instr} (p : Pocket)

theorem Drum.runLength_tickMs (t : Tuning) (d : Drum) : runLength t d.tickMs = runLength t d := rfl

/-- What a drum's timers bring due at a 1 ms tick. -/
theorem mem_drumDueMs {t : Tuning} {d : Drum} :
    c ∈ drumDueMs p t d ↔
      (d.silence = 2999 ∧ c = .silenceExpiry p) ∨
      (d.state = .spinup ∧ d.spinTimer = 9999 ∧ c = .spinupFail p) ∨
      (d.state = .run ∧ (∃ len, runLength t d = some len ∧ len * 1000 ≤ min 65535000 (d.runTimer + 1)) ∧
        c = .runEnd p) ∨
      (d.state = .coast ∧ d.confirmed = true ∧ d.coastTimer < 14999 ∧ t.pause * 1000 ≤ d.coastTimer + 1 ∧
        c = .coastEnd p) ∨
      (d.state = .coast ∧ d.coastTimer = 14999 ∧ c = .noStop p) := by
  have run : d.state = .run → ((match runLength t d.tickMs with
      | some len => decide (len * 1000 ≤ d.tickMs.runTimer)
      | none => false) = true ↔ ∃ len, runLength t d = some len ∧ len * 1000 ≤ min 65535000 (d.runTimer + 1)) :=
    fun state => by
      rw [Drum.runLength_tickMs, ← satSucc_eq_min]
      cases runLength t d <;> simp [Drum.tickMs, state]
  have coast : d.state = .coast → d.coastTimer < 14999 → d.tickMs.coastTimer = d.coastTimer + 1 := fun state below => by
    simp [Drum.tickMs, state, upTo, below]
  simp only [drumDueMs, List.mem_append, mem_due, Bool.and_eq_true, beq_iff_eq, decide_eq_true_eq]
  constructor
  · rintro ((((h | h) | ⟨⟨state, due⟩, rfl⟩) | ⟨⟨⟨⟨state, confirmed⟩, below⟩, due⟩, rfl⟩) | h)
    · exact .inl h
    · exact .inr (.inl ⟨h.1.1, h.1.2, h.2⟩)
    · exact .inr (.inr (.inl ⟨state, (run state).1 due, rfl⟩))
    · rw [coast state below] at due
      exact .inr (.inr (.inr (.inl ⟨state, confirmed, below, due, rfl⟩)))
    · exact .inr (.inr (.inr (.inr ⟨h.1.1, h.1.2, h.2⟩)))
  · rintro (h | ⟨state, timer, e⟩ | ⟨state, due, e⟩ | ⟨state, confirmed, below, due, e⟩ | ⟨state, timer, e⟩)
    · exact .inl (.inl (.inl (.inl h)))
    · exact .inl (.inl (.inl (.inr ⟨⟨state, timer⟩, e⟩)))
    · exact .inl (.inl (.inr ⟨⟨state, (run state).2 due⟩, e⟩))
    · rw [← coast state below] at due
      exact .inl (.inr ⟨⟨⟨⟨state, confirmed⟩, below⟩, due⟩, e⟩)
    · exact .inr ⟨⟨state, timer⟩, e⟩

theorem mem_stageDueMs {st : Stage} {u : StageUnit} :
    c ∈ stageDueMs st u ↔ u.state = .dwell ∧ u.dwell = 4999 ∧ c = .dwellEnd st := by
  simp [stageDueMs, mem_due, and_assoc]

theorem mem_loadDueMs {l : LoadShare} :
    c ∈ loadDueMs l ↔
      (l.allowanceA = some 1 ∧ c = .startAllowanceEnd .a) ∨ (l.allowanceB = some 1 ∧ c = .startAllowanceEnd .b) ∨
      (∃ st, { stage := st, notBefore := some 1 } ∈ l.queue ∧ c = .notBeforeExpiry st) ∨
      (l.pacing = 249 ∧ c = .pacingTimerExpiry) ∨ (l.mains.lossTimer = 39 ∧ c = .mainsLost) := by
  have queued : c ∈ (l.queue.filter fun e => e.notBefore == some 1).map (fun e => .notBeforeExpiry e.stage) ↔
      ∃ st, { stage := st, notBefore := some 1 } ∈ l.queue ∧ c = .notBeforeExpiry st := by
    simp only [List.mem_map, List.mem_filter, beq_iff_eq]
    constructor
    · rintro ⟨⟨st, _⟩, ⟨inQueue, rfl⟩, rfl⟩
      exact ⟨st, inQueue, rfl⟩
    · rintro ⟨st, inQueue, rfl⟩
      exact ⟨_, ⟨inQueue, rfl⟩, rfl⟩
  simp only [loadDueMs, List.mem_append, mem_due, beq_iff_eq, queued, or_assoc]

theorem mem_dueMs {b : Blocks} :
    c ∈ b.dueMs ↔
      (∃ p, c ∈ drumDueMs p (b.pocket p).tuning (b.pocket p).drum) ∨
      (∃ st, (b.stage st).state = .dwell ∧ (b.stage st).dwell = 4999 ∧ c = .dwellEnd st) ∨ c ∈ loadDueMs b.load ∨
      (b.contacts.chord = .qualifying ∧ b.chordThreshold ≤ min 2000 (b.contacts.chordTimer + 1) ∧
        c = .chordQualify) := by
  have pockets : ∀ q : Pocket → Prop, (∃ p, q p) ↔ q .a ∨ q .b := fun q =>
    ⟨fun ⟨p, h⟩ => by cases p; exacts [.inl h, .inr h], fun h => by obtain h | h := h; exacts [⟨_, h⟩, ⟨_, h⟩]⟩
  have stages : ∀ q : Stage → Prop, (∃ st, q st) ↔ q .a1 ∨ q .a2 ∨ q .b1 ∨ q .b2 := fun q =>
    ⟨fun ⟨p, h⟩ => by cases p <;> simp [h], fun h => by
      obtain h | h | h | h := h
      exacts [⟨_, h⟩, ⟨_, h⟩, ⟨_, h⟩, ⟨_, h⟩]⟩
  have chord : (b.contacts.chord == .qualifying && decide (b.chordThreshold ≤ b.contacts.tickMs.chordTimer)) = true ↔
      b.contacts.chord = .qualifying ∧ b.chordThreshold ≤ min 2000 (b.contacts.chordTimer + 1) := by
    rw [Bool.and_eq_true, beq_iff_eq, decide_eq_true_eq]
    refine and_congr_right fun qualifying => ?_
    rw [Contacts.tickMs, if_pos qualifying, satSucc_eq_min]
  simp only [Blocks.dueMs, List.mem_append, mem_stageDueMs, mem_due, chord, pockets, stages, Blocks.pocket, Blocks.stage,
    or_assoc, and_assoc]

/-- What a pocket's counters bring due at a 1 s tick. -/
theorem mem_secondDue {u : PocketUnit} {heated : Bool} :
    c ∈ secondDue p u (u.tickSecond heated) ↔
      ((u.cycle.state = .drying ∨ u.cycle.state = .extending) ∧
        u.tuning.timeLimit * 60 ≤ min 65535 (u.cycle.elapsed + 1) ∧ c = .timeLimitReached p) ∨
      (u.cycle.state = .extending ∧ u.drum.state = .run ∧ u.cycle.extension ≤ 1 ∧ c = .extensionEnd p) ∨
      (u.cycle.state = .cooling ∧ u.tuning.coolTime * 60 ≤ min 65535 (u.cycle.cool + 1) ∧ c = .coolTimeExpiry p) ∨
      (u.cycle.state = .creaseGuard ∧ 299 ≤ u.cycle.creaseTimer ∧ u.cycle.creaseElapsed < 7199 ∧ c = .creaseBurst p) ∨
      (u.cycle.state = .creaseGuard ∧ 7199 ≤ u.cycle.creaseElapsed ∧ c = .creaseGuardEnd p) ∨
      (u.cycle.state.countsFreshness = true ∧ u.cycle.freshness = 1 ∧ c = .freshnessExpiry p) := by
  have limit : u.cycle.state.heating = true → ((u.tickSecond heated).limitReached = true ↔
      u.tuning.timeLimit * 60 ≤ min 65535 (u.cycle.elapsed + 1)) := fun heating => by
    simp [PocketUnit.limitReached, PocketUnit.tickSecond, heating, satSucc_eq_min]
  have state : (u.tickSecond heated).cycle.state = u.cycle.state := rfl
  have extension : u.cycle.state = .extending ∧ u.drum.state = .run →
      ((u.tickSecond heated).cycle.extension = 0 ↔ u.cycle.extension ≤ 1) := fun both => by
    simp only [PocketUnit.tickSecond, both, and_self, if_true]
    omega
  have cool : u.cycle.state = .cooling → (u.tickSecond heated).cycle.cool = min 65535 (u.cycle.cool + 1) := fun h => by
    simp [PocketUnit.tickSecond, h, satSucc_eq_min]
  have crease : u.cycle.state = .creaseGuard →
      (u.tickSecond heated).cycle.creaseTimer = min 300 (u.cycle.creaseTimer + 1) ∧
        (u.tickSecond heated).cycle.creaseElapsed = min 7200 (u.cycle.creaseElapsed + 1) := fun h => by
    simp [PocketUnit.tickSecond, h, satSucc_eq_min]
  have tuning : (u.tickSecond heated).tuning = u.tuning := rfl
  simp only [secondDue, List.mem_append, mem_due, Bool.and_eq_true, beq_iff_eq, decide_eq_true_eq, state, tuning,
    or_assoc]
  refine or_congr ?_ (or_congr ?_ (or_congr ?_ (or_congr ?_ (or_congr ?_ ?_))))
  · rw [← CycleState.heating_iff, and_assoc]
    exact and_congr_right fun heating => and_congr_left' (limit heating)
  · constructor
    · rintro ⟨⟨⟨s, run⟩, zero⟩, e⟩
      exact ⟨s, run, (extension ⟨s, run⟩).1 zero, e⟩
    · rintro ⟨s, run, one, e⟩
      exact ⟨⟨⟨s, run⟩, (extension ⟨s, run⟩).2 one⟩, e⟩
  · rw [and_assoc]
    exact and_congr_right fun s => by rw [cool s]
  · simp only [and_assoc]
    refine and_congr_right fun s => ?_
    rw [(crease s).1, (crease s).2, ← and_assoc, ← and_assoc]
    exact and_congr_left' (by omega)
  · rw [and_assoc]
    refine and_congr_right fun s => and_congr_left' ?_
    rw [(crease s).2]
    omega
  · rw [and_assoc]

theorem mem_inputDue {row : List Byte} {first high : Bool} {i : Fin 12} {u : Input} :
    c ∈ inputDue row first i high u ↔
      ((u.sample first high).stability = 200 ∧ u.stability = 199 ∧ u.level ≠ levelOf (logicalLevel row i high) ∧
        c = .debouncedChange i high) ∨
      (first = false ∧ (if rowEdgeInactive row i = true then
          logicalLevel row i u.pin = true ∧ logicalLevel row i high = false
        else logicalLevel row i u.pin = false ∧ logicalLevel row i high = true) ∧
        ∃ p, actingFunction row i = .tach p ∧ c = .tachPulse p) := by
  have edge : (!first && if rowEdgeInactive row i then
      logicalLevel row i u.pin && !logicalLevel row i high else !logicalLevel row i u.pin && logicalLevel row i high) =
        true ↔ first = false ∧ (if rowEdgeInactive row i = true then
          logicalLevel row i u.pin = true ∧ logicalLevel row i high = false
        else logicalLevel row i u.pin = false ∧ logicalLevel row i high = true) := by
    split <;> simp
  rw [inputDue, List.mem_append]
  refine or_congr ?_ ?_
  · simp only [mem_due, Bool.and_eq_true, beq_iff_eq, bne_iff_ne, and_assoc]
  · cases acting : actingFunction row i with
    | tach q => simp only [mem_due, edge, and_assoc, InputFunction.tach.injEq, exists_eq_left']
    | _ => simp

theorem State.inputAfterSample_eq (s : State) (i : Nat) :
    s.inputAfterSample i = (s.blocks.input i).sample (s.blocks.clock + 1 == 100) (s.pins.contact i) := by
  simp only [State.inputAfterSample, Input.sample, Pins.contact, satSucc_eq_min, Bool.or_eq_true, beq_iff_eq, bne_iff_ne]

theorem mem_contactsDue {b : Blocks} {first : Bool} {pins : Pins} :
    c ∈ b.contactsDue first pins ↔ ∃ i : Fin 12, c ∈ inputDue b.working first i (pins.contact i) (b.input i) := by
  simp only [Blocks.contactsDue, List.mem_flatMap, List.mem_finRange, true_and]

theorem mem_samplesDue {t : Nat} {pins : Pins} :
    c ∈ samplesDue t pins ↔
      (t % 10000 = 0 ∧ ∃ p, c = .electrodeSample p (match p with | .a => pins.electrodeA | .b => pins.electrodeB)) ∨
      (t % 100000 = 0 ∧ ∃ ch, c = .temperatureSample ch (match ch with
        | .exhaust .a => pins.thermistorA | .exhaust .b => pins.thermistorB | .inlet => pins.thermistorInlet)) := by
  have sensors : ∀ q : Sensor → Prop, (∃ ch, q ch) ↔ q (.exhaust .a) ∨ q (.exhaust .b) ∨ q .inlet := fun q =>
    ⟨fun ⟨ch, h⟩ => by obtain ⟨_ | _⟩ | _ := ch <;> simp [h], fun h => by
      obtain h | h | h := h
      exacts [⟨_, h⟩, ⟨_, h⟩, ⟨_, h⟩]⟩
  have pockets : ∀ q : Pocket → Prop, (∃ p, q p) ↔ q .a ∨ q .b := fun q =>
    ⟨fun ⟨p, h⟩ => by cases p; exacts [.inl h, .inr h], fun h => by obtain h | h := h; exacts [⟨_, h⟩, ⟨_, h⟩]⟩
  rw [samplesDue, List.mem_append, sensors, pockets]
  refine or_congr ?_ ?_
  · split <;> simp_all [atMultiple_iff]
  · split <;> simp_all [atMultiple_iff]

theorem mem_dueTick {b : Blocks} {pins : Pins} :
    c ∈ b.dueTick pins ↔
      ((b.clock + 1) % 100 = 0 ∧ c ∈ b.contactsDue (b.clock + 1 == 100) pins) ∨
      ((b.clock + 1) % 1000 = 0 ∧ c ∈ b.dueMs) ∨
      ((b.clock + 1) % 1000000 = 0 ∧ c ∈ b.tickMs.dueSecond) ∨ c ∈ samplesDue (b.clock + 1) pins := by
  have given : ∀ (every : Nat) (l : List Instr),
      c ∈ (if atMultiple (b.clock + 1) every then l else []) ↔ (b.clock + 1) % every = 0 ∧ c ∈ l := fun every l => by
    rw [← atMultiple_iff]
    split <;> simp_all
  rw [Blocks.dueTick]
  simp only [List.mem_append, given, or_assoc]

theorem mem_dueSecond {b : Blocks} :
    c ∈ b.dueSecond ↔ ∃ p, c ∈ secondDue p (b.pocket p) ((b.pocket p).tickSecond (b.load.heats p)) := by
  rw [Blocks.dueSecond, List.mem_append]
  exact ⟨fun h => by obtain h | h := h; exacts [⟨.a, h⟩, ⟨.b, h⟩], fun ⟨p, h⟩ => by cases p; exacts [.inl h, .inr h]⟩

theorem Blocks.tickMs_pocket (b : Blocks) (p : Pocket) : b.tickMs.pocket p = (b.pocket p).tickMs := by cases p <;> rfl

/-- What falls due of the blocks has its time come. -/
theorem State.timeDue_of_mem {s : State} (h : c ∈ s.blocks.dueTick s.pins) : s.TimeDue c := by
  obtain ⟨sampled, h⟩ | ⟨ms, h⟩ | ⟨second, h⟩ | h := mem_dueTick.1 h
  · obtain ⟨i, h⟩ := mem_contactsDue.1 h
    rw [mem_inputDue, ← s.inputAfterSample_eq] at h
    obtain ⟨reached, before, changed, rfl⟩ | ⟨notFirst, edge, p, acting, rfl⟩ := h
    · exact ⟨sampled, rfl, before, reached, changed⟩
    · exact ⟨sampled, by simpa using notFirst, i, i.isLt, acting, edge⟩
  · obtain ⟨p, h⟩ | ⟨st, state, timer, rfl⟩ | h | ⟨qualifying, reached, rfl⟩ := mem_dueMs.1 h
    · obtain ⟨timer, rfl⟩ | ⟨state, timer, rfl⟩ | ⟨state, length, rfl⟩ | ⟨state, confirmed, below, timer, rfl⟩ |
        ⟨state, timer, rfl⟩ := (mem_drumDueMs p).1 h
      · exact ⟨ms, timer⟩
      · exact ⟨ms, state, timer⟩
      · exact ⟨ms, state, length⟩
      · exact ⟨ms, state, confirmed, below, timer⟩
      · exact ⟨ms, state, timer⟩
    · exact ⟨ms, state, timer⟩
    · obtain ⟨last, rfl⟩ | ⟨last, rfl⟩ | ⟨st, last, rfl⟩ | ⟨last, rfl⟩ | ⟨last, rfl⟩ := mem_loadDueMs.1 h <;>
        exact ⟨ms, last⟩
    · exact ⟨ms, qualifying, reached⟩
  · obtain ⟨p, h⟩ := mem_dueSecond.1 h
    rw [Blocks.tickMs_pocket, mem_secondDue] at h
    obtain ⟨state, limit, rfl⟩ | ⟨state, run, one, rfl⟩ | ⟨state, time, rfl⟩ | ⟨state, timer, elapsed, rfl⟩ |
      ⟨state, elapsed, rfl⟩ | ⟨counts, one, rfl⟩ := h
    · exact ⟨second, state, limit⟩
    · exact ⟨second, state, run, one⟩
    · exact ⟨second, state, time⟩
    · exact ⟨second, state, timer, elapsed⟩
    · exact ⟨second, state, elapsed⟩
    · exact ⟨second, counts, one⟩
  · obtain ⟨tenth, p, rfl⟩ | ⟨tenth, ch, rfl⟩ := mem_samplesDue.1 h
    · exact ⟨tenth, rfl⟩
    · exact ⟨tenth, rfl⟩

/-- What has its time come falls due. -/
theorem State.mem_of_timeDue {s : State} (h : s.TimeDue c) : c ∈ s.blocks.dueTick s.pins := by
  -- by source: the 1 ms and the 1 s counters, the samples
  have drums : ∀ p, (s.blocks.clock + 1) % 1000 = 0 →
      c ∈ drumDueMs p (s.blocks.pocket p).tuning (s.blocks.pocket p).drum → c ∈ s.blocks.dueTick s.pins :=
    fun p ms h => mem_dueTick.2 (.inr (.inl ⟨ms, mem_dueMs.2 (.inl ⟨p, h⟩)⟩))
  have loads : (s.blocks.clock + 1) % 1000 = 0 → c ∈ loadDueMs s.blocks.load → c ∈ s.blocks.dueTick s.pins :=
    fun ms h => mem_dueTick.2 (.inr (.inl ⟨ms, mem_dueMs.2 (.inr (.inr (.inl h)))⟩))
  have pockets : ∀ p, (s.blocks.clock + 1) % 1000000 = 0 →
      c ∈ secondDue p (s.blocks.pocket p).tickMs ((s.blocks.pocket p).tickMs.tickSecond (s.blocks.tickMs.load.heats p)) →
      c ∈ s.blocks.dueTick s.pins :=
    fun p second h => by
      rw [← Blocks.tickMs_pocket] at h
      exact mem_dueTick.2 (.inr (.inr (.inl ⟨second, mem_dueSecond.2 ⟨p, h⟩⟩)))
  have inputs : ∀ i : Fin 12, (s.blocks.clock + 1) % 100 = 0 →
      c ∈ inputDue s.blocks.working (s.blocks.clock + 1 == 100) i (s.pins.contact i) (s.blocks.input i) →
      c ∈ s.blocks.dueTick s.pins :=
    fun i sampled h => mem_dueTick.2 (.inl ⟨sampled, mem_contactsDue.2 ⟨i, h⟩⟩)
  cases c
  case silenceExpiry p => exact drums p h.1 ((mem_drumDueMs p).2 (.inl ⟨h.2, rfl⟩))
  case spinupFail p =>
    obtain ⟨ms, state, timer⟩ := h
    exact drums p ms ((mem_drumDueMs p).2 (.inr (.inl ⟨state, timer, rfl⟩)))
  case runEnd p =>
    obtain ⟨ms, state, length⟩ := h
    exact drums p ms ((mem_drumDueMs p).2 (.inr (.inr (.inl ⟨state, length, rfl⟩))))
  case coastEnd p =>
    obtain ⟨ms, state, confirmed, below, timer⟩ := h
    exact drums p ms ((mem_drumDueMs p).2 (.inr (.inr (.inr (.inl ⟨state, confirmed, below, timer, rfl⟩)))))
  case noStop p =>
    obtain ⟨ms, state, timer⟩ := h
    exact drums p ms ((mem_drumDueMs p).2 (.inr (.inr (.inr (.inr ⟨state, timer, rfl⟩)))))
  case dwellEnd st =>
    obtain ⟨ms, state, timer⟩ := h
    exact mem_dueTick.2 (.inr (.inl ⟨ms, mem_dueMs.2 (.inr (.inl ⟨st, state, timer, rfl⟩))⟩))
  case startAllowanceEnd p =>
    obtain ⟨ms, running⟩ := h
    cases p
    · exact loads ms (mem_loadDueMs.2 (.inl ⟨running, rfl⟩))
    · exact loads ms (mem_loadDueMs.2 (.inr (.inl ⟨running, rfl⟩)))
  case notBeforeExpiry st => exact loads h.1 (mem_loadDueMs.2 (.inr (.inr (.inl ⟨st, h.2, rfl⟩))))
  case pacingTimerExpiry => exact loads h.1 (mem_loadDueMs.2 (.inr (.inr (.inr (.inl ⟨h.2, rfl⟩)))))
  case mainsLost => exact loads h.1 (mem_loadDueMs.2 (.inr (.inr (.inr (.inr ⟨h.2, rfl⟩)))))
  case chordQualify =>
    obtain ⟨ms, qualifying, reached⟩ := h
    exact mem_dueTick.2 (.inr (.inl ⟨ms, mem_dueMs.2 (.inr (.inr (.inr ⟨qualifying, reached, rfl⟩)))⟩))
  case timeLimitReached p =>
    obtain ⟨second, state, limit⟩ := h
    exact pockets p second ((mem_secondDue p).2 (.inl ⟨state, limit, rfl⟩))
  case extensionEnd p =>
    obtain ⟨second, state, run, one⟩ := h
    exact pockets p second ((mem_secondDue p).2 (.inr (.inl ⟨state, run, one, rfl⟩)))
  case coolTimeExpiry p =>
    obtain ⟨second, state, time⟩ := h
    exact pockets p second ((mem_secondDue p).2 (.inr (.inr (.inl ⟨state, time, rfl⟩))))
  case creaseBurst p =>
    obtain ⟨second, state, timer, elapsed⟩ := h
    exact pockets p second ((mem_secondDue p).2 (.inr (.inr (.inr (.inl ⟨state, timer, elapsed, rfl⟩)))))
  case creaseGuardEnd p =>
    obtain ⟨second, state, elapsed⟩ := h
    exact pockets p second ((mem_secondDue p).2 (.inr (.inr (.inr (.inr (.inl ⟨state, elapsed, rfl⟩))))))
  case freshnessExpiry p =>
    obtain ⟨second, counts, one⟩ := h
    exact pockets p second ((mem_secondDue p).2 (.inr (.inr (.inr (.inr (.inr ⟨counts, one, rfl⟩))))))
  case electrodeSample p v =>
    obtain ⟨tenth, rfl⟩ := h
    exact mem_dueTick.2 (.inr (.inr (.inr (mem_samplesDue.2 (.inl ⟨tenth, p, rfl⟩)))))
  case temperatureSample ch raw =>
    obtain ⟨tenth, rfl⟩ := h
    exact mem_dueTick.2 (.inr (.inr (.inr (mem_samplesDue.2 (.inr ⟨tenth, ch, rfl⟩)))))
  case debouncedChange i high =>
    obtain ⟨sampled, rfl, before, reached, changed⟩ := h
    rw [s.inputAfterSample_eq] at reached
    exact inputs i sampled (mem_inputDue.2 (.inl ⟨reached, before, changed, rfl⟩))
  case tachPulse p =>
    obtain ⟨sampled, notFirst, i, hi, acting, edge⟩ := h
    exact inputs ⟨i, hi⟩ sampled (mem_inputDue.2 (.inr ⟨by simpa using notFirst, edge, p, acting, rfl⟩))
  all_goals exact absurd h id

end

/-! ## The cycle of a running part -/

theorem StageUnit.tickMs_eq (u : StageUnit) :
    u.tickMs = { u with dwell := if u.state = .dwell then upTo 4999 u.dwell else u.dwell } := by
  unfold StageUnit.tickMs
  split <;> rfl

/-- A count of the 1 ms, the statement's way. -/
theorem ite_and_lt (ms : Prop) [Decidable ms] (last v : Nat) :
    (if ms ∧ v < last then v + 1 else v) = if ms then upTo last v else v := by
  unfold upTo
  by_cases h : ms <;> simp [h]

/-- A pocket after a cycle, item by item (R20, R55, R67, R89, R92). -/
theorem PocketUnit.passed_eq (ms second : Prop) [Decidable ms] [Decidable second] (heated : Bool) (u : PocketUnit) :
    u.passed ms second heated =
      let c := u.cycle
      let d := u.drum
      let up := fun last v : Nat => if ms then upTo last v else v
      let stage := fun v : StageUnit =>
        { v with dwell := if v.state = .dwell then up 4999 v.dwell else v.dwell, ended := false }
      { u with
        drum :=
          { d with
            silence := up 2999 d.silence
            spinTimer := if d.state = .spinup then up 9999 d.spinTimer else d.spinTimer
            runTimer := if ms ∧ d.state = .run then min 65535000 (d.runTimer + 1) else d.runTimer
            coastTimer := if d.state = .coast then up 14999 d.coastTimer else d.coastTimer }
        stage1 := stage u.stage1
        stage2 := stage u.stage2
        cycle :=
          { c with
            elapsed :=
              if second ∧ (c.state = .drying ∨ c.state = .extending) then min 65535 (c.elapsed + 1) else c.elapsed
            th := if second ∧ heated = true then min 65535 (c.th + 1) else c.th
            extension := if second ∧ c.state = .extending ∧ d.state = .run then c.extension - 1 else c.extension
            cool := if second ∧ c.state = .cooling then min 65535 (c.cool + 1) else c.cool
            creaseTimer := if second ∧ c.state = .creaseGuard then min 300 (c.creaseTimer + 1) else c.creaseTimer
            creaseElapsed :=
              if second ∧ c.state = .creaseGuard then min 7200 (c.creaseElapsed + 1) else c.creaseElapsed
            freshness :=
              if second ∧ (c.state = .starting ∨ c.state = .drying ∨ c.state = .extending ∨ c.state = .cooling ∨
                c.state = .creaseGuard ∨ c.state = .paused) ∧ 1 < c.freshness then c.freshness - 1
              else c.freshness } } := by
  by_cases first : ms <;> by_cases last : second <;>
    simp [PocketUnit.passed, first, last, PocketUnit.tickMs, PocketUnit.tickSecond, PocketUnit.nextInstant, Drum.tickMs,
      StageUnit.tickMs_eq, satSucc_eq_min, CycleState.heating_iff, CycleState.countsFreshness_iff]
  all_goals exact ⟨rfl, rfl⟩

theorem Contacts.tickMs_eq (c : Contacts) :
    c.tickMs = { c with chordTimer := if c.chord = .qualifying then min 2000 (c.chordTimer + 1) else c.chordTimer } := by
  unfold Contacts.tickMs
  split <;> simp [satSucc_eq_min]

/-- Settles O2: what counts is each block's own tick, and what joins the queue is what falls due, in some order. -/
theorem emptyQueueStepIsOneClockCycle : Obligations.EmptyQueueStepIsOneClockCycle := by
  refine ⟨fun s empty run => ?_, fun s empty => ⟨fun still => ?_, fun k n waits => ?_⟩⟩
  · obtain ⟨working, optionState, held, clock, -, inlet, alerts⟩ := s.blocks.tick_rest s.pins
    refine ⟨s.runCycle.post s.dueTick, ?_, run, clock, rfl, rfl, rfl, rfl, rfl, alerts, ?_, ?_, fun p => ?_, ?_, ?_,
      inlet, working, optionState, held, fun c => ?_⟩
    · rw [step, empty]
      simp only [State.tick, run]
    · rintro (_ | _) <;> rfl
    · rintro (_ | _) <;> rfl
    · show (s.blocks.tick s.pins).pocket p = _
      rw [Blocks.tick_pocket, atMultiple_eq_decide, atMultiple_eq_decide, PocketUnit.passed_eq]
      simp only [ite_and_lt]
      cases p <;> rfl
    · show (s.blocks.tick s.pins).load = _
      rw [Blocks.tick_load]
      simp only [ite_and_lt, atMultiple, beq_iff_eq]
      split <;> simp [LoadShare.tickMs, downTo]
    · show (s.blocks.tick s.pins).contacts = _
      rw [Blocks.tick_contacts]
      simp only [← State.inputAfterSample_eq, atMultiple, beq_iff_eq]
      split <;> split <;> simp [Contacts.tickMs_eq, *]
    · have joins : (s.runCycle.post s.dueTick).pending = (shuffle s.dueTick.length s.runCycle.blocks.draws s.dueTick).1 := by
        show s.pending ++ _ = _
        rw [empty]
        rfl
      rw [joins, (shuffle_perm _ _ _).mem_iff, State.dueTick, List.mem_append, List.mem_append]
      constructor
      · rintro ((line | link) | blocks)
        · exact .inr (.inl line)
        · exact .inr (.inr link)
        · exact .inl (State.timeDue_of_mem blocks)
      · rintro (blocks | line | link)
        · exact .inr (State.mem_of_timeDue blocks)
        · exact .inl (.inl line)
        · exact .inl (.inr link)
  · rw [step, empty]
    obtain off | held := still
    · simp only [State.tick, off]
    · simp only [State.tick, held]
  · rw [step, empty]
    unfold State.tick
    split <;> simp_all [State.post, shuffle]

end Sys2Proof.Machine
end

section
/-! SUPPORT. The alert sets at a raised or presented cause, the input map, and with them the resets and the end of the
start-up (R141, R152, R170 to R173). -/

namespace Sys2Proof.Machine

/-! ## Alert sets (R152) -/

/-- A cause that is pending, or becomes it, is pending besides the others. -/
theorem Blocks.makePending_pending (b : Blocks) (k : Cause) :
    (b.makePending k).alerts.pending = b.alerts.pending ||| k.bit := by
  unfold Blocks.makePending
  split
  case isTrue already => exact (or_bit_of_inSet already).symm
  case isFalse => split <;> rfl

theorem Blocks.makePending_otherSets (b : Blocks) (k : Cause) :
    (b.makePending k).alerts.forced = b.alerts.forced ∧ (b.makePending k).alerts.enabled = b.alerts.enabled ∧
      (b.makePending k).alerts.presented = b.alerts.presented := by
  unfold Blocks.makePending
  split
  · exact ⟨rfl, rfl, rfl⟩
  · split <;> exact ⟨rfl, rfl, rfl⟩

/-- The four sets with some level causes presented and pending besides (R152). -/
def Alerts.Adds (a c : Alerts) (causes : BitVec 16) : Prop :=
  c.pending = a.pending ||| causes ∧ c.presented = a.presented ||| causes ∧ c.forced = a.forced ∧ c.enabled = a.enabled

theorem Blocks.present_adds (b : Blocks) (k : Cause) : b.alerts.Adds (b.present k).alerts k.bit := by
  obtain ⟨forced, enabled, presented⟩ := Blocks.makePending_otherSets
    { b with alerts := { b.alerts with presented := b.alerts.presented ||| k.bit } } k
  exact ⟨Blocks.makePending_pending _ k, presented, forced, enabled⟩

theorem Blocks.presentUnmapped_adds (b : Blocks) (p : Pocket) :
    b.alerts.Adds (b.presentUnmapped p).alerts
      (if (carrier b.working (.hilimit p)).isNone then (Cause.highLimit p).bit else 0) := by
  unfold Blocks.presentUnmapped
  split
  · exact b.present_adds _
  · simp [Alerts.Adds]

/-! ## The input map (R141) -/

theorem findCarrier_eq_some {row : List Byte} {f : InputFunction} {n i j : Nat} :
    findCarrier row f n i = some j ↔
      i ≤ j ∧ j < i + n ∧ rowFunction row j = f ∧ ∀ k, i ≤ k → k < j → rowFunction row k ≠ f := by
  induction n generalizing i with
  | zero =>
    simp only [findCarrier, reduceCtorEq, false_iff]
    omega
  | succ n ih =>
    rw [findCarrier]
    split
    case isTrue carries =>
      rw [Option.some_inj]
      constructor
      · rintro rfl
        exact ⟨Nat.le_refl _, by omega, carries, fun k low high => by omega⟩
      · rintro ⟨low, -, -, lowest⟩
        by_contra ne
        exact lowest i (Nat.le_refl _) (by omega) carries
    case isFalse other =>
      rw [ih]
      constructor
      · rintro ⟨low, high, carries, lowest⟩
        refine ⟨by omega, by omega, carries, fun k lowK highK => ?_⟩
        by_cases e : k = i
        · rwa [e]
        · exact lowest k (by omega) highK
      · rintro ⟨low, high, carries, lowest⟩
        have ne : i ≠ j := fun e => other (e ▸ carries)
        exact ⟨by omega, by omega, carries, fun k lowK highK => lowest k (by omega) highK⟩

/-- The carrier of a function is the lowest-numbered input mapped to it (R141). -/
theorem carrier_eq_some {row : List Byte} {f : InputFunction} {i : Nat} :
    carrier row f = some i ↔ i < 12 ∧ rowFunction row i = f ∧ ∀ j, j < i → rowFunction row j ≠ f := by
  rw [carrier, findCarrier_eq_some]
  constructor
  · rintro ⟨-, high, carries, lowest⟩
    exact ⟨by omega, carries, fun j below => lowest j (Nat.zero_le _) below⟩
  · rintro ⟨high, carries, lowest⟩
    exact ⟨Nat.zero_le _, by omega, carries, fun j _ below => lowest j below⟩

/-- Some input carries a function that the row maps one to (R141). -/
theorem carrier_isSome {row : List Byte} {f : InputFunction} {i : Nat} (h : i < 12) (maps : rowFunction row i = f) :
    ∃ j, j ≤ i ∧ carrier row f = some j := by
  induction i using Nat.strong_induction_on with
  | _ i ih =>
    by_cases lower : ∃ j, j < i ∧ rowFunction row j = f
    · obtain ⟨j, below, carries⟩ := lower
      obtain ⟨k, le, found⟩ := ih j below (by omega) carries
      exact ⟨k, by omega, found⟩
    · exact ⟨i, Nat.le_refl _, carrier_eq_some.2 ⟨h, maps, fun j below carries => lower ⟨j, below, carries⟩⟩⟩

/-- The codes that name a function of one carrier are 1 to 12. -/
theorem functionOfCode_shared {n : Nat} (h : n < 16) :
    (functionOfCode n = .unused ∨ functionOfCode n = .chord) ↔ n = 0 ∨ 13 ≤ n := by
  revert n
  decide

theorem functionOfCode_injective {m n : Nat} (hm : m < 16) (hn : n < 16) (same : functionOfCode m = functionOfCode n) :
    m = n ∨ m = 0 ∨ 13 ≤ m := by
  have codes : ∀ m < 16, ∀ n < 16, functionOfCode m = functionOfCode n → m = n ∨ m = 0 ∨ 13 ≤ m := by decide
  exact codes m hm n hn same

/-- Each input is the carrier of its function, or NONE or CHORD (R170). -/
theorem inputMapOk_iff_carriers {row : List Byte} :
    inputMapOk row = true ↔ ∀ i, i < 12 →
      rowFunction row i = .unused ∨ rowFunction row i = .chord ∨ carrier row (rowFunction row i) = some i := by
  rw [inputMapOk, List.all_eq_true]
  refine forall_congr' fun i => ?_
  rw [List.mem_range]
  refine imp_congr_right fun _ => ?_
  split <;> simp_all

/-- The map is good exactly if no code from 1 to 12 stands at two inputs (R170). -/
theorem inputMapOk_iff {row : List Byte} :
    inputMapOk row = true ↔ ∀ i j, i < j → j < 12 → rowByte row (0x36 + i) % 16 = rowByte row (0x36 + j) % 16 →
      rowByte row (0x36 + i) % 16 = 0 ∨ 13 ≤ rowByte row (0x36 + i) % 16 := by
  rw [inputMapOk_iff_carriers]
  have small : ∀ i, rowByte row (0x36 + i) % 16 < 16 := fun i => Nat.mod_lt _ (by decide)
  constructor
  · intro ok i j below high same
    rw [← functionOfCode_shared (small i)]
    have functions : rowFunction row i = rowFunction row j := congrArg functionOfCode same
    obtain unused | chord | found := ok j high
    · exact .inl (functions.trans unused)
    · exact .inr (functions.trans chord)
    · exact absurd functions ((carrier_eq_some.1 found).2.2 i below)
  · intro distinct j high
    by_cases shared : rowFunction row j = .unused ∨ rowFunction row j = .chord
    · exact shared.imp_right .inl
    · refine .inr (.inr (carrier_eq_some.2 ⟨high, rfl, fun i below same => shared ?_⟩))
      rw [← same]
      refine (functionOfCode_shared (small i)).2 ?_
      obtain codes | free := functionOfCode_injective (small i) (small j) same
      · exact distinct i j below high codes
      · exact free

/-! ## The start-up (R169 to R172) -/

theorem tableOk_iff {row : List Byte} :
    tableOk row = true ↔ (∀ i, i < 16 → rowPoint row i ≤ rowPoint row (i + 1)) ∨
      ∀ i, i < 16 → rowPoint row (i + 1) ≤ rowPoint row i := by
  simp only [tableOk, Bool.or_eq_true, List.all_eq_true, List.mem_range, decide_eq_true_eq]

theorem checkRow_valid {row : List Byte} :
    checkRow row = .valid ↔ rowSum row % 65536 = rowWord row 0x7E ∧ rowByte row 0x02 = 0 ∧ rowByte row 0x05 = 0 ∧
      rowBase row 0x02 % 0x20000 ≠ rowBase row 0x05 % 0x20000 ∧ rowByte row 0x00 ≠ rowByte row 0x01 ∧
      rowByte row 0x0E < rowByte row 0x0F ∧ 2 ≤ rowByte row 0x12 ∧ rowByte row 0x12 ≤ 60 ∧
      tableOk row = true ∧ inputMapOk row = true := by
  unfold checkRow
  split <;> simp_all

theorem Alerts.afterReset_sets (a : Alerts) (k : ResetKind) :
    (a.afterReset k).pending = 0 ∧ (a.afterReset k).forced = 0 ∧ (a.afterReset k).enabled = 0 ∧
      (a.afterReset k).presented = 0 := by
  cases k <;> exact ⟨rfl, rfl, rfl, rfl⟩

/-- The set of the two cutouts, each in it or not. -/
theorem inSet_highLimits (x y : Bool) (p : Pocket) :
    inSet ((0 ||| if x then (Cause.highLimit .a).bit else 0) ||| if y then (Cause.highLimit .b).bit else 0) (.highLimit p) =
      if p = .a then x else y := by
  cases x <;> cases y <;> cases p <;> rfl

/-- The sets at step 5: the cutouts that no input carries are presented (R142, R151). -/
theorem Blocks.afterReset_sets (b : Blocks) (row : List Byte) (k : ResetKind) :
    (b.afterReset row k).alerts.forced = 0 ∧ (b.afterReset row k).alerts.enabled = 0 ∧
      (b.afterReset row k).alerts.pending = (b.afterReset row k).alerts.presented ∧
      ∀ p, inSet (b.afterReset row k).alerts.presented (.highLimit p) = (carrier row (.hilimit p)).isNone := by
  obtain ⟨pending₁, presented₁, forced₁, enabled₁⟩ := (b.cleared row k).presentUnmapped_adds .a
  obtain ⟨pending₂, presented₂, forced₂, enabled₂⟩ := ((b.cleared row k).presentUnmapped .a).presentUnmapped_adds .b
  obtain ⟨pending, forced, enabled, presented⟩ := b.alerts.afterReset_sets k
  have row₁ : ((b.cleared row k).presentUnmapped .a).working = row := by
    obtain ⟨a, only⟩ := (b.cleared row k).presentUnmapped_alertsOnly .a
    rw [only]
    rfl
  rw [row₁] at presented₂ pending₂
  rw [← b.afterReset_eq] at pending₂ presented₂ forced₂ enabled₂
  have set : (b.cleared row k).alerts = b.alerts.afterReset k := rfl
  have working : (b.cleared row k).working = row := rfl
  rw [set, working] at pending₁ presented₁
  rw [set] at forced₁ enabled₁
  refine ⟨?_, ?_, ?_, fun p => ?_⟩
  · rw [forced₂, forced₁, forced]
  · rw [enabled₂, enabled₁, enabled]
  · rw [pending₂, presented₂, pending₁, presented₁, pending, presented]
  · rw [presented₂, presented₁, presented, inSet_highLimits]
    cases p <;> rfl

/-- With both cutouts mapped nothing is presented. -/
theorem Blocks.afterReset_of_mapped (b : Blocks) (row : List Byte) (k : ResetKind)
    (mapped : ∀ p, (carrier row (.hilimit p)).isSome) : b.afterReset row k = b.cleared row k := by
  have none : ∀ (c : Blocks) (p : Pocket), c.working = row → c.presentUnmapped p = c := fun c p working => by
    unfold Blocks.presentUnmapped
    rw [working, if_neg (by simp [Option.isNone_iff_eq_none, Option.ne_none_iff_isSome, mapped p])]
  rw [b.afterReset_eq, none _ .a rfl, none _ .b rfl]

/-- Settles O10: the reset values by definition, the sets by the presentation of unmapped cutouts, the check of the input map
by the lowest-numbered carrier. -/
theorem startUpGivesResetValues : Obligations.StartUpGivesResetValues := by
  refine ⟨fun s k waited => ?_, fun row => ?_, fun b => ?_⟩
  · obtain ⟨a, only⟩ := s.blocks.afterReset_alertsOnly s.storedRow k
    obtain ⟨forced, enabled, pending, presented⟩ := s.blocks.afterReset_sets s.storedRow k
    refine ⟨s.blocks.afterReset s.storedRow k, ?_, ?_, ?_, ?_, ?_, ?_, ?_, ?_, ?_, forced, enabled, pending, presented,
      fun mapped => ?_⟩
    · show execStartUpWaitEnd s = _
      rw [execStartUpWaitEnd, waited]
      rfl
    case refine_10 =>
      rw [Blocks.afterReset_of_mapped _ _ _ mapped]
      cases k <;> rfl
    all_goals rw [only]; rfl
  · dsimp only
    rw [checkRow_valid, tableOk_iff, inputMapOk_iff]
    rfl
  · refine ⟨fun valid => ?_, fun fault => ?_⟩
    · exact ⟨if_pos valid, if_pos valid, if_pos valid, if_pos valid⟩
    · have notValid : b.optionState ≠ .valid := by simp [fault]
      exact ⟨if_neg notValid, if_neg notValid, if_neg notValid, if_neg notValid⟩

/-! ## Resets (R16, R167, R172, R173) -/

theorem Blocks.drawCount_le (b : Blocks) (most : Nat) : b.drawCount most ≤ most :=
  Nat.lt_succ_iff.1 (Nat.mod_lt _ (Nat.succ_pos _))

theorem State.beginReset_of_quiet {s : State} (access : s.path.access = none) (write : s.nvWrite = none) (next : Phase) :
    s.beginReset next =
      { s with
        phase := next, blocks := s.blocks.deEnergise, service := .reset
        path := { s.path with interpreting := false, passThrough := false, frame := none } } := by
  simp [State.beginReset, State.cutWriteForReset, State.cutAccessForReset, access, write]

/-- A reset cuts what is in flight, after a number of bytes that is free. -/
theorem State.beginReset_cuts (s : State) (next : Phase) :
    (s.beginReset next).path.access = none ∧ (s.beginReset next).nvWrite = none ∧
      (∀ acc, s.path.access = some acc → acc.phase = .inFlight → acc.kind = .poke → 1 ≤ acc.count →
        ∃ k, k < acc.count ∧
          (s.beginReset next).ram = writeRamBytes (startAddress acc.addr) (acc.data.take k) s.ram) ∧
      ((∀ acc, s.path.access = some acc → acc.phase ≠ .inFlight ∨ acc.kind = .peek) →
        (s.beginReset next).ram = s.ram) ∧
      (∀ w, s.nvWrite = some w → ∃ m, m ≤ w.data.length ∧
        (s.beginReset next).storedRow = writeRow s.storedRow w.off (w.data.take m)) ∧
      (s.nvWrite = none → (s.beginReset next).storedRow = s.storedRow) := by
  have write : s.cutAccessForReset.nvWrite = s.nvWrite ∧ s.cutAccessForReset.storedRow = s.storedRow := by
    unfold State.cutAccessForReset
    split
    · split
      · unfold State.pokeBytes
        split <;> exact ⟨rfl, rfl⟩
      · exact ⟨rfl, rfl⟩
    · exact ⟨rfl, rfl⟩
  have ram : (s.beginReset next).ram = s.cutAccessForReset.ram := by
    unfold State.beginReset State.cutWriteForReset
    dsimp only
    split <;> rfl
  refine ⟨rfl, ?_, fun acc access inFlight poke count => ?_, fun calm => ?_, fun w running => ?_, fun none => ?_⟩
  · unfold State.beginReset State.cutWriteForReset
    dsimp only
    split
    · rfl
    · assumption
  · refine ⟨s.blocks.drawCount (acc.count - 1), ?_, ?_⟩
    · have := s.blocks.drawCount_le (acc.count - 1)
      omega
    · rw [ram]
      simp [State.cutAccessForReset, access, inFlight, State.pokeBytes, poke, State.noteAccess]
  · rw [ram]
    unfold State.cutAccessForReset
    split
    case h_1 acc access =>
      split
      case isTrue inFlight =>
        have peek : acc.kind = .peek := (calm acc access).resolve_left fun not => not inFlight
        simp [State.pokeBytes, peek, State.noteAccess]
      · rfl
    · rfl
  · rw [← write.1] at running
    refine ⟨s.cutAccessForReset.blocks.drawCount w.data.length, Blocks.drawCount_le _ _, ?_⟩
    simp [State.beginReset, State.cutWriteForReset, running, write.2]
  · rw [← write.1] at none
    simp [State.beginReset, State.cutWriteForReset, none, write.2]

/-- Settles O11: every reset and a falling supply begin in the same way. -/
theorem resetsBeginAtOnce : Obligations.ResetsBeginAtOnce := by
  refine ⟨fun s access write => ?_, fun s c which => ?_⟩
  · have begins := State.beginReset_of_quiet access write
    refine ⟨?_, ?_, fun powered => ?_, fun run due => ?_, fun held => ?_⟩
    · show execPowerOnReset s = _
      rw [execPowerOnReset, begins]
      rfl
    · show execPowerFail s = _
      rw [execPowerFail, begins]
      rfl
    · show execPinReset s = _
      rw [execPinReset, if_neg powered, begins]
      rfl
    · show execServiceReset s = _
      rw [execServiceReset, State.whileRunning, if_pos run, if_pos due, begins]
      rfl
    · show execResetRelease s = _
      rw [execResetRelease, if_pos held]
  · obtain rfl | rfl | ⟨rfl, powered⟩ | ⟨rfl, run, due⟩ := which
    · exact ⟨_, rfl, s.beginReset_cuts _⟩
    · exact ⟨_, rfl, s.beginReset_cuts _⟩
    · refine ⟨{ s.beginReset .pinHeld with pins := { s.pins with resetInput := true } }, ?_, s.beginReset_cuts .pinHeld⟩
      show execPinReset s = _
      rw [execPinReset, if_neg powered]
    · refine ⟨_, ?_, s.beginReset_cuts (.startUpWait .service 0)⟩
      show execServiceReset s = _
      rw [execServiceReset, State.whileRunning, if_pos run, if_pos due]

end Sys2Proof.Machine
end

section
/-! SUPPORT. STORE frames: the RAM, the capture of a byte, and the frame that takes nothing (R1 to R6, R13, R16, R17, R176). -/

namespace Sys2Proof.Machine

/-! ## The RAM read back -/

/-- A run of bytes is read back byte by byte, and every other address as before. -/
theorem readRam_writeRamBytes {ram : List Host.Cell} (canonical : Memory.wf ram = true) (addr : BitVec 17)
    {data : List Byte} (fits : data.length ≤ 0x20000) (a : BitVec 17) :
    readRam (writeRamBytes addr data ram) a.toNat =
      match data[(a - addr).toNat]? with
      | some v => v
      | none => readRam ram a.toNat := by
  induction data generalizing addr ram with
  | nil => rfl
  | cons v rest ih =>
    have short : rest.length < 0x20000 := by simpa using fits
    rw [writeRamBytes, ih (writeRam_wf v canonical addr.isLt) (addr + 1) (by omega)]
    by_cases first : a = addr
    · -- the first byte's address: the rest, of fewer than 0x20000 bytes, does not come round to it
      subst first
      have far : (a - (a + 1)).toNat = 0x1FFFF := by
        have : a - (a + 1) = 0x1FFFF#17 := by bv_omega
        rw [this]
        rfl
      have beyond : rest[0x1FFFF]? = none := List.getElem?_eq_none (by omega)
      rw [far, beyond, readRam_writeRam _ _ _ canonical]
      simp
    · have next : (a - addr).toNat = (a - (addr + 1)).toNat + 1 := by bv_omega
      rw [next, List.getElem?_cons_succ]
      have other : a.toNat ≠ addr.toNat := fun e => first (BitVec.eq_of_toNat_eq e)
      rw [readRam_writeRam _ _ _ canonical, if_neg other]

/-- Settles O13: by induction on the bytes written, each by the RAM's own law. -/
theorem ramReadsWhatWasStored : Obligations.RamReadsWhatWasStored := by
  intro ram addr data a canonical fits
  refine (readRam_writeRamBytes canonical addr fits a).trans ?_
  cases data[(a - addr).toNat]? <;> rfl

/-! ## The bytes of a frame -/

/-- A frame that meets no access in flight asserts select and opens the frame's own state. -/
theorem State.beginFrame_of_calm {s : State} (calm : ∀ acc, s.path.access = some acc → acc.phase ≠ .inFlight) :
    s.beginFrame =
      { s with
        pins := { s.pins with select := true }
        path := { s.path with frame := some { seqA := none, seqB := none, seqCommon := none } } } := by
  unfold State.beginFrame State.assertSelect
  cases access : s.path.access with
  | none => simp [access, State.modPath]
  | some acc => simp [access, State.modPath, calm acc access]

/-- The state within a STORE frame, before its bytes are stored. -/
def State.inStore (s : State) (addr : BitVec 24) (data : List Byte) (ends : FrameEnd (List Bool)) : State :=
  { s with
    pins := { s.pins with select := true }
    path := { s.path with frame := some { seqA := none, seqB := none, seqCommon := none } }
    link :=
      { toRam := s.blocks.storeCode :: addressBytes addr ++ data, toRamCut := ends.cut, toController := []
        toControllerCut := [] } }

/-- The state within a STORE frame, all of its bytes stored. -/
def State.stored (s : State) (addr : BitVec 24) (data : List Byte) (ends : FrameEnd (List Bool)) : State :=
  (s.inStore addr data ends).storeBytes (startAddress addr) data

theorem State.passStore_eq {s : State} (calm : ∀ acc, s.path.access = some acc → acc.phase ≠ .inFlight)
    (addr : BitVec 24) (data : List Byte) (ends : FrameEnd (List Bool)) :
    s.passStore addr data ends =
      (if (s.stored addr data ends).captures then (s.stored addr data ends).frameEnd
        else s.stored addr data ends).endFrame ends.again := by
  unfold State.passStore
  rw [State.beginFrame_of_calm calm]
  rfl

theorem exec_storeFrame {s : State} (powered : s.phase ≠ .off) (addr : BitVec 24) (data : List Byte)
    (ends : FrameEnd (List Bool)) : exec (.storeFrame addr data ends) s = .next (s.passStore addr data ends) := by
  show execStoreFrame addr data ends s = _
  rw [execStoreFrame, State.whilePowered, if_neg powered]

/-- A byte that is not captured reaches the RAM and does no more. -/
theorem State.storeByte_of_not_captures {s : State} (captures : s.captures = false) (addr : BitVec 17) (v : Byte) :
    s.storeByte addr v = { s with ram := writeRam addr.toNat v s.ram } := by
  unfold State.storeByte
  exact if_neg (by simp [State.captures, State.interprets] at captures ⊢; exact captures)

/-- A byte outside the demand page reaches the RAM and does no more. -/
theorem State.storeByte_of_outside {s : State} {addr : BitVec 17} (outside : pageOffset s.blocks.demandBase addr = none)
    (v : Byte) : s.storeByte addr v = { s with ram := writeRam addr.toNat v s.ram } := by
  unfold State.storeByte
  simp [outside]

/-- A byte of the page's ordinary memory reaches the RAM and does no more (R176). -/
theorem State.storeByte_of_ordinary {s : State} {addr : BitVec 17} {off : Nat}
    (place : pageOffset s.blocks.demandBase addr = some off) (ordinary : demandByte off = .ordinary) (v : Byte) :
    s.storeByte addr v = { s with ram := writeRam addr.toNat v s.ram } := by
  unfold State.storeByte
  simp [place, ordinary, State.captureByte]

theorem PathUnit.setStaging_rest (u : PathUnit) (r : RecordId) (st : Staging) :
    (u.setStaging r st).interpreting = u.interpreting ∧ (u.setStaging r st).passThrough = u.passThrough ∧
      (u.setStaging r st).frame = u.frame := by
  obtain ⟨_ | _⟩ | _ := r <;> exact ⟨rfl, rfl, rfl⟩

/-- What the store of a byte does besides its capture: it reaches the RAM, and link, pins and the capture of stores stand. -/
theorem State.storeByte_rest (s : State) (addr : BitVec 17) (v : Byte) :
    (s.storeByte addr v).ram = writeRam addr.toNat v s.ram ∧ (s.storeByte addr v).link = s.link ∧
      (s.storeByte addr v).pins = s.pins ∧ (s.storeByte addr v).captures = s.captures := by
  unfold State.storeByte
  dsimp only
  split
  · split
    · rename_i off _
      cases demandByte off with
      | seq r => exact ⟨rfl, rfl, rfl, rfl⟩
      | keepalive p =>
        refine ⟨rfl, rfl, rfl, ?_⟩
        cases p <;> rfl
      | field r i =>
        obtain ⟨interpreting, passThrough, -⟩ :=
          s.path.setStaging_rest r ((s.path.staging r).touch i v)
        refine ⟨rfl, rfl, rfl, ?_⟩
        simp only [State.captures, State.interprets, State.captureByte, State.modPath, interpreting, passThrough]
      | ordinary => exact ⟨rfl, rfl, rfl, rfl⟩
    · exact ⟨rfl, rfl, rfl, rfl⟩
  · exact ⟨rfl, rfl, rfl, rfl⟩

theorem State.storeBytes_rest (s : State) (addr : BitVec 17) (data : List Byte) :
    (s.storeBytes addr data).ram = writeRamBytes addr data s.ram ∧ (s.storeBytes addr data).link = s.link ∧
      (s.storeBytes addr data).pins = s.pins ∧ (s.storeBytes addr data).captures = s.captures := by
  induction data generalizing s addr with
  | nil => exact ⟨rfl, rfl, rfl, rfl⟩
  | cons v rest ih =>
    obtain ⟨ram₁, link₁, pins₁, captures₁⟩ := s.storeByte_rest addr v
    obtain ⟨ram, link, pins, captures⟩ := ih (s.storeByte addr v) (addr + 1)
    exact ⟨ram.trans (by rw [ram₁]; rfl), link.trans link₁, pins.trans pins₁, captures.trans captures₁⟩

/-- Takes leave the RAM, the link and the pins alone. -/
theorem State.takeAll_rest (s : State) (due : List (RecordId × Byte)) :
    (s.takeAll due).ram = s.ram ∧ (s.takeAll due).link = s.link ∧ (s.takeAll due).pins = s.pins := by
  induction due generalizing s with
  | nil => exact ⟨rfl, rfl, rfl⟩
  | cons d rest ih =>
    obtain ⟨r, v⟩ := d
    obtain ⟨ram, link, pins⟩ := ih (s.takeRecord r v)
    cases r <;> exact ⟨ram, link, pins⟩

/-- The frame of a store: what reaches RAM and link, and select at its end. -/
theorem State.passStore_rest {s : State} (calm : ∀ acc, s.path.access = some acc → acc.phase ≠ .inFlight)
    (addr : BitVec 24) (data : List Byte) (ends : FrameEnd (List Bool)) :
    (s.passStore addr data ends).ram = writeRamBytes (startAddress addr) data s.ram ∧
      (s.passStore addr data ends).link = (s.inStore addr data ends).link ∧
      (s.passStore addr data ends).pins = { s.pins with select := ends.again } := by
  obtain ⟨ram, link, pins, -⟩ := (s.inStore addr data ends).storeBytes_rest (startAddress addr) data
  rw [State.passStore_eq calm]
  split
  · obtain ⟨ram', link', pins'⟩ := State.takeAll_rest
      ((s.stored addr data ends).modBlocks fun b =>
        { b with draws := (shuffle 3 (s.stored addr data ends).blocks.draws (s.stored addr data ends).dueTakes).2 })
      (shuffle 3 (s.stored addr data ends).blocks.draws (s.stored addr data ends).dueTakes).1
    refine ⟨ram'.trans ram, link'.trans link, ?_⟩
    have both := pins'.trans pins
    exact congrArg (fun q : Pins => { q with select := ends.again }) both
  · refine ⟨ram, link, ?_⟩
    exact congrArg (fun q : Pins => { q with select := ends.again }) pins

/-- With no record due a frame's end takes nothing. -/
theorem State.frameEnd_of_none {s : State} (due : s.dueTakes = []) : s.frameEnd = s := by
  unfold State.frameEnd
  rw [due]
  rfl

/-- A frame after whose bytes no record is due: it ends with what its bytes brought about. -/
theorem State.passStore_of_none {s : State} (calm : ∀ acc, s.path.access = some acc → acc.phase ≠ .inFlight)
    {addr : BitVec 24} {data : List Byte} {ends : FrameEnd (List Bool)} (due : (s.stored addr data ends).dueTakes = []) :
    s.passStore addr data ends = (s.stored addr data ends).endFrame ends.again := by
  rw [State.passStore_eq calm, State.frameEnd_of_none due, ite_self]

/-- With no SEQ value kept no record is due (R6). -/
theorem State.dueTakes_of_empty {s : State}
    (frame : s.path.frame = some { seqA := none, seqB := none, seqCommon := none }) : s.dueTakes = [] := by
  simp [State.dueTakes, frame, FrameState.kept]

/-- A run of bytes of which none is captured as a demand byte reaches the RAM and does no more. -/
theorem State.storeBytes_of_plain {s : State} {addr : BitVec 17} {data : List Byte}
    (plain : s.captures = false ∨ ∀ i off, i < data.length →
      pageOffset s.blocks.demandBase (addr + BitVec.ofNat 17 i) = some off → demandByte off = .ordinary) :
    s.storeBytes addr data = { s with ram := writeRamBytes addr data s.ram } := by
  induction data generalizing s addr with
  | nil => rfl
  | cons v rest ih =>
    have byte : s.storeByte addr v = { s with ram := writeRam addr.toNat v s.ram } := by
      obtain captures | ordinary := plain
      · exact State.storeByte_of_not_captures captures addr v
      · cases place : pageOffset s.blocks.demandBase addr with
        | none => exact State.storeByte_of_outside place v
        | some off => exact State.storeByte_of_ordinary place (ordinary 0 off (by simp) (by simpa using place)) v
    rw [State.storeBytes, byte, ih]
    · rfl
    · refine plain.imp id fun ordinary i off inside place => ?_
      refine ordinary (i + 1) off (by simpa using inside) ?_
      rw [← place]
      congr 1
      rw [BitVec.add_assoc, Nat.add_comm i 1, BitVec.ofNat_add]
      rfl

/-- Ordinary memory of the demand page, and the bytes of its records that lie in no field (R3, R175, R176). -/
theorem demandByte_ordinary {off : Nat} (h : (0x18 ≤ off ∧ off < 0x40) ∨ (0x58 ≤ off ∧ off < 0x80) ∨ 0x88 ≤ off) :
    demandByte off = .ordinary := by
  unfold demandByte pocketRecordByte
  repeat' split
  all_goals first | rfl | omega

/-- Settles O12: every byte is stored, and bytes that are not captured leave no record due. -/
theorem storeFrameReachesRam : Obligations.StoreFrameReachesRam := by
  intro s addr data ends powered calm
  refine ⟨⟨_, exec_storeFrame powered addr data ends, State.passStore_rest calm addr data ends⟩, fun plain => ?_⟩
  have bytes : s.stored addr data ends =
      { s.inStore addr data ends with ram := writeRamBytes (startAddress addr) data s.ram } :=
    State.storeBytes_of_plain (plain.imp id fun ordinary i off inside place =>
      demandByte_ordinary (ordinary i off inside place))
  rw [exec_storeFrame powered, State.passStore_of_none calm, bytes]
  · rfl
  · rw [bytes]
    exact State.dueTakes_of_empty rfl

/-! ## Capture (R3 to R6, R175, R176) -/

theorem pageOffset_iff {base a : BitVec 17} {off : Nat} :
    pageOffset base a = some off ↔ off < 256 ∧ a = base + BitVec.ofNat 17 off := by
  unfold pageOffset
  constructor
  · intro h
    split at h
    case isTrue small =>
      obtain rfl := Option.some.inj h
      refine ⟨small, ?_⟩
      rw [BitVec.ofNat_toNat, BitVec.setWidth_eq]
      bv_omega
    case isFalse => simp at h
  · rintro ⟨small, rfl⟩
    exact pageOffset_base_add base small

/-- A byte of a field is staged and touched (R4). -/
theorem State.storeByte_field {s : State} (captures : s.captures = true) {addr : BitVec 17} {off i : Nat} {r : RecordId}
    (place : pageOffset s.blocks.demandBase addr = some off) (field : demandByte off = .field r i) (v : Byte) :
    s.storeByte addr v =
      { s with
        ram := writeRam addr.toNat v s.ram
        path := s.path.setStaging r ((s.path.staging r).touch i v) } := by
  rw [State.storeByte_of_captures captures place, field]
  rfl

/-- A KEEPALIVE byte reloads freshness (R5). -/
theorem State.storeByte_keepalive {s : State} (captures : s.captures = true) {addr : BitVec 17} {off : Nat} {p : Pocket}
    (place : pageOffset s.blocks.demandBase addr = some off) (keepalive : demandByte off = .keepalive p) (v : Byte) :
    s.storeByte addr v =
      { s with ram := writeRam addr.toNat v s.ram, blocks := s.blocks.reloadFreshness p } := by
  rw [State.storeByte_of_captures captures place, keepalive]
  rfl

/-- A SEQ byte is the last one kept of its record in the frame (R5). -/
theorem State.storeByte_keepsSeq {s : State} (captures : s.captures = true) {addr : BitVec 17} {off : Nat} {r : RecordId}
    (place : pageOffset s.blocks.demandBase addr = some off) (seq : demandByte off = .seq r) (v : Byte) :
    s.storeByte addr v =
      { s with
        ram := writeRam addr.toNat v s.ram
        path := { s.path with frame := s.path.frame.map fun f => f.keep r v } } := by
  rw [State.storeByte_of_captures captures place, seq]
  rfl

theorem demandByte_pocket (p : Pocket) {k : Nat} (h : k < 0x40) :
    demandByte ((if p = .a then 0x00 else 0x40) + k) =
      if k = 0x00 then .seq (.pocket p) else if k = 0x02 then .keepalive p
      else if k ≤ 0x17 then .field (.pocket p) k else .ordinary := by
  have table : ∀ k < 0x40,
      demandByte (0x00 + k) = (if k = 0x00 then .seq (.pocket .a) else if k = 0x02 then .keepalive .a
        else if k ≤ 0x17 then .field (.pocket .a) k else .ordinary) ∧
      demandByte (0x40 + k) = (if k = 0x00 then .seq (.pocket .b) else if k = 0x02 then .keepalive .b
        else if k ≤ 0x17 then .field (.pocket .b) k else .ordinary) := by decide
  cases p
  · exact (table k h).1
  · exact (table k h).2

/-- With no access at the arbiter no frame meets one in flight. -/
theorem State.calm_of_noAccess {s : State} (access : s.path.access = none) :
    ∀ acc, s.path.access = some acc → acc.phase ≠ .inFlight := by simp [access]

/-- A frame of one byte that is a field's stages it and takes nothing (R4, R6). -/
theorem State.passStore_field {s : State} (access : s.path.access = none) (captures : s.captures = true)
    {addr : BitVec 24} {off i : Nat} {r : RecordId}
    (place : pageOffset s.blocks.demandBase (startAddress addr) = some off) (field : demandByte off = .field r i)
    (v : Byte) (ends : FrameEnd (List Bool)) :
    s.passStore addr [v] ends =
      { s.afterFrame (s.blocks.storeCode :: addressBytes addr ++ [v]) ends [] [] with
        ram := writeRam (startAddress addr).toNat v s.ram
        path := (s.afterFrame (s.blocks.storeCode :: addressBytes addr ++ [v]) ends [] []).path.setStaging r
          ((s.path.staging r).touch i v) } := by
  have bytes : s.stored addr [v] ends =
      { s.inStore addr [v] ends with
        ram := writeRam (startAddress addr).toNat v s.ram
        path := (s.inStore addr [v] ends).path.setStaging r ((s.path.staging r).touch i v) } := by
    have staged := State.storeByte_field (s := s.inStore addr [v] ends) captures place field v
    have same : (s.inStore addr [v] ends).path.staging r = s.path.staging r := by obtain ⟨_ | _⟩ | _ := r <;> rfl
    rw [same] at staged
    exact staged
  rw [State.passStore_of_none (State.calm_of_noAccess access), bytes]
  · obtain ⟨_ | _⟩ | _ := r <;> rfl
  · rw [bytes]
    exact State.dueTakes_of_empty ((PathUnit.setStaging_rest _ _ _).2.2.trans rfl)

/-- A frame of one byte that is a SEQ with the last-taken value takes nothing (R6). -/
theorem State.passStore_sameSeq {s : State} (access : s.path.access = none) (captures : s.captures = true)
    {addr : BitVec 24} {off : Nat} {r : RecordId}
    (place : pageOffset s.blocks.demandBase (startAddress addr) = some off) (seq : demandByte off = .seq r)
    (ends : FrameEnd (List Bool)) :
    s.passStore addr [(s.path.staging r).lastSeq] ends =
      { s.afterFrame (s.blocks.storeCode :: addressBytes addr ++ [(s.path.staging r).lastSeq]) ends [] [] with
        ram := writeRam (startAddress addr).toNat (s.path.staging r).lastSeq s.ram } := by
  have bytes := State.storeByte_keepsSeq (s := s.inStore addr [(s.path.staging r).lastSeq] ends) captures place seq
    (s.path.staging r).lastSeq
  have stored : s.stored addr [(s.path.staging r).lastSeq] ends = _ := bytes
  rw [State.passStore_of_none (State.calm_of_noAccess access), stored]
  · rfl
  · rw [stored]
    obtain ⟨_ | _⟩ | _ := r <;>
      simp [State.dueTakes, State.inStore, FrameState.keep, FrameState.kept, PathUnit.staging]

/-- Settles O14: a frame of one field byte, or of a SEQ with the last-taken value, leaves no record due; the places of the
bytes by computation; a run of bytes by the store of its first. -/
theorem storesAreStagedUntilANewSeq : Obligations.StoresAreStagedUntilANewSeq := by
  refine ⟨fun s addr v ends off i r powered access captures place => ⟨fun field => ?_, fun seq same => ?_⟩,
    fun base a off => pageOffset_iff, fun p k small => demandByte_pocket p small,
    ⟨rfl, fun k low high => ?_, fun off high => demandByte_ordinary (by omega)⟩, fun s addr v rest => ?_⟩
  · rw [exec_storeFrame powered, State.passStore_field access captures place field]
    rfl
  · subst same
    rw [exec_storeFrame powered, State.passStore_sameSeq access captures place seq]
  · have table : ∀ k ≤ 7, 1 ≤ k → demandByte (0x80 + k) = .field .common k := by decide
    exact table k high low
  · refine ⟨rfl, fun plain => ?_, fun off captures place => ⟨fun r i field => ?_, fun p keepalive => ?_, fun r seq => ?_,
      fun ordinary => ?_⟩⟩
    · obtain captures | outside := plain
      · exact congrArg (State.storeBytes · (addr + 1) rest) (State.storeByte_of_not_captures captures addr v)
      · exact congrArg (State.storeBytes · (addr + 1) rest) (State.storeByte_of_outside outside v)
    · exact congrArg (State.storeBytes · (addr + 1) rest) (State.storeByte_field captures place field v)
    · exact congrArg (State.storeBytes · (addr + 1) rest) (State.storeByte_keepalive captures place keepalive v)
    · refine congrArg (State.storeBytes · (addr + 1) rest) ((State.storeByte_keepsSeq captures place seq v).trans ?_)
      obtain ⟨_ | _⟩ | _ := r <;> rfl
    · exact congrArg (State.storeBytes · (addr + 1) rest) (State.storeByte_of_ordinary place ordinary v)

/-- Settles O15: the frame's one byte is a KEEPALIVE byte, or is not captured. -/
theorem keepaliveReloadsFreshness : Obligations.KeepaliveReloadsFreshness := by
  intro s p v powered access
  have calm := State.calm_of_noAccess access
  have runs : exec (.keepalive p v) s =
      .next (s.passStore (s.demandAddress (recordOffset (.pocket p) + 0x02)) [v] .clean) := by
    show execKeepalive p v s = _
    rw [execKeepalive, State.whilePowered, if_neg powered]
  have place : pageOffset s.blocks.demandBase (startAddress (s.demandAddress (recordOffset (.pocket p) + 0x02))) =
      some (recordOffset (.pocket p) + 0x02) := by
    rw [startAddress_demandAddress]
    exact pageOffset_base_add _ (by cases p <;> decide)
  have keepalive : demandByte (recordOffset (.pocket p) + 0x02) = .keepalive p := by cases p <;> rfl
  dsimp only
  rw [runs]
  by_cases captures : s.captures = true
  · have bytes : s.stored (s.demandAddress (recordOffset (.pocket p) + 0x02)) [v] .clean = _ :=
      State.storeByte_keepalive (s := s.inStore _ [v] .clean) captures place keepalive v
    rw [State.passStore_of_none calm, bytes, if_pos captures]
    · rfl
    · rw [bytes]
      exact State.dueTakes_of_empty rfl
  · have bytes : s.stored (s.demandAddress (recordOffset (.pocket p) + 0x02)) [v] .clean = _ :=
      State.storeByte_of_not_captures (s := s.inStore _ [v] .clean) (Bool.eq_false_iff.2 captures) _ v
    rw [State.passStore_of_none calm, bytes, if_neg captures]
    · rfl
    · rw [bytes]
      exact State.dueTakes_of_empty rfl

end Sys2Proof.Machine
end

section
/-! SUPPORT. The judgement of a record's fields, each by its own bytes alone, and the staging record after a take (R7, R8, R29,
R175). -/

namespace Sys2Proof.Machine

/-! ## Bytes -/

theorem toLe_getElem? {size k : Nat} (h : k < size) (v : Nat) :
    (toLe size v)[k]? = some (BitVec.ofNat 8 (v / 256 ^ k)) := by
  induction size generalizing v k with
  | zero => omega
  | succ size ih =>
    cases k with
    | zero => simp [toLe]
    | succ k =>
      rw [toLe, List.getElem?_cons_succ, ih (by omega), Nat.div_div_eq_div_mul, Nat.pow_succ']

theorem toLe_length (size v : Nat) : (toLe size v).length = size := by
  induction size generalizing v with
  | zero => rfl
  | succ size ih => simp [toLe, ih]

theorem setBytes_length {bytes : List Byte} (off size v : Nat) : bytes.length ≤ (setBytes bytes off size v).length := by
  simp only [setBytes, List.length_append, List.length_take, List.length_drop, toLe_length]
  omega

theorem setBytes_length_of_fits {bytes : List Byte} {off size : Nat} (fits : off + size ≤ bytes.length) (v : Nat) :
    (setBytes bytes off size v).length = bytes.length := by
  simp only [setBytes, List.length_append, List.length_take, List.length_drop, toLe_length]
  omega

/-- A byte of the record after some of its bytes are set. -/
theorem setBytes_getElem? {bytes : List Byte} {i : Nat} (h : i < bytes.length) (off size v : Nat) :
    (setBytes bytes off size v)[i]? =
      if off ≤ i ∧ i < off + size then some (BitVec.ofNat 8 (v / 256 ^ (i - off))) else bytes[i]? := by
  unfold setBytes
  split
  case isTrue inside =>
    obtain ⟨low, high⟩ := inside
    rw [List.append_assoc, List.getElem?_append_right (by simp; omega), List.getElem?_append_left (by simp [toLe_length]; omega),
      List.length_take, Nat.min_eq_left (by omega), toLe_getElem? (by omega)]
  case isFalse outside =>
    by_cases low : i < off
    · rw [List.append_assoc, List.getElem?_append_left (by simp; omega), List.getElem?_take, if_pos low]
    · have length : (bytes.take off ++ toLe size v).length = off + size := by simp [toLe_length]; omega
      rw [List.getElem?_append_right (by omega), length, List.getElem?_drop]
      congr 1
      omega

/-- The bytes of a field. -/
def PocketField.Covers (f : PocketField) (i : Nat) : Prop := f.offset ≤ i ∧ i < f.offset + f.size

/-- No two fields share a byte (R175). -/
theorem PocketField.covers_unique {f g : PocketField} {i : Nat} (hf : f.Covers i) (hg : g.Covers i) : f = g := by
  obtain ⟨lowF, highF⟩ := hf
  obtain ⟨lowG, highG⟩ := hg
  have table : ∀ i < 0x18, ∀ f ∈ pocketFields, ∀ g ∈ pocketFields, f.offset ≤ i → i < f.offset + f.size →
      g.offset ≤ i → i < g.offset + g.size → f = g := by decide
  have all : ∀ f : PocketField, f ∈ pocketFields := fun f => by cases f <;> decide
  have end_ : f.offset + f.size ≤ 0x18 := by cases f <;> decide
  exact table i (by omega) f (all f) g (all g) lowF highF lowG highG

/-- Some fields' bytes set to the values in effect. -/
def restoreFields (t : Tuning) (fields : List PocketField) (bytes : List Byte) : List Byte :=
  fields.foldl (fun bs f => setBytes bs f.offset f.size (t.get f)) bytes

theorem restoreFields_outside (t : Tuning) {fields : List PocketField} {bytes : List Byte} {i : Nat}
    (h : i < bytes.length) (outside : ∀ f ∈ fields, ¬f.Covers i) : (restoreFields t fields bytes)[i]? = bytes[i]? := by
  induction fields generalizing bytes with
  | nil => rfl
  | cons f rest ih =>
    have longer := setBytes_length (bytes := bytes) f.offset f.size (t.get f)
    refine (ih (bytes := setBytes bytes f.offset f.size (t.get f)) (by omega) fun g hg =>
      outside g (List.mem_cons_of_mem _ hg)).trans ?_
    rw [setBytes_getElem? h]
    exact if_neg (outside f List.mem_cons_self)

theorem restoreFields_field (t : Tuning) {fields : List PocketField} {bytes : List Byte} {f : PocketField} {i : Nat}
    (h : i < bytes.length) (covers : f.Covers i)
    (set : f ∈ fields ∨ bytes[i]? = some (BitVec.ofNat 8 (t.get f / 256 ^ (i - f.offset)))) :
    (restoreFields t fields bytes)[i]? = some (BitVec.ofNat 8 (t.get f / 256 ^ (i - f.offset))) := by
  induction fields generalizing bytes with
  | nil => exact set.resolve_left List.not_mem_nil
  | cons g rest ih =>
    have longer := setBytes_length (bytes := bytes) g.offset g.size (t.get g)
    have byte := setBytes_getElem? h g.offset g.size (t.get g)
    refine ih (bytes := setBytes bytes g.offset g.size (t.get g)) (by omega) ?_
    by_cases same : f = g
    · subst same
      rw [byte, if_pos (show f.offset ≤ i ∧ i < f.offset + f.size from covers)]
      exact .inr rfl
    · have outside : ¬g.Covers i := fun hg => same (PocketField.covers_unique covers hg)
      rw [byte, if_neg (show ¬(g.offset ≤ i ∧ i < g.offset + g.size) from outside)]
      exact set.imp (fun mem => (List.mem_cons.1 mem).resolve_left same) id

theorem restoreFields_length (t : Tuning) (fields : List PocketField) {bytes : List Byte} (h : 0x18 ≤ bytes.length) :
    (restoreFields t fields bytes).length = bytes.length := by
  induction fields generalizing bytes with
  | nil => rfl
  | cons f rest ih =>
    have end_ : f.offset + f.size ≤ 0x18 := by cases f <;> decide
    have length := setBytes_length_of_fits (bytes := bytes) (off := f.offset) (size := f.size) (by omega) (t.get f)
    exact (ih (bytes := setBytes bytes f.offset f.size (t.get f)) (by omega)).trans length

theorem PocketField.mem_pocketFields (f : PocketField) : f ∈ pocketFields := by cases f <;> decide

/-! ## The judgement of one field -/

/-- A field's own part of a judgement: its value, and whether it is in each of the three sets. -/
def Judged.part (j : Judged) (f : PocketField) : Nat × Bool × Bool × Bool :=
  (j.tuning.get f, j.clamped.getLsbD (f.number - 1), j.torn.getLsbD (f.number - 1), j.refused.getLsbD (f.number - 1))

theorem fieldBit_getLsbD (f g : PocketField) : (fieldBit f.number).getLsbD (g.number - 1) = decide (g = f) := by
  cases f <;> cases g <;> rfl

/-- The part that a field's own judgement leaves it, by its bytes and the value it had. -/
def fieldPart (c : Cycle) (st : Staging) (f : PocketField) (old : Nat × Bool × Bool × Bool) : Nat × Bool × Bool × Bool :=
  let v := stagedValue st.bytes f.offset f.size
  match touchOf st.touched f.offset f.size with
  | .untouched => old
  | .torn => (old.1, old.2.1, true, old.2.2.2)
  | .whole =>
    if f.isCode then
      if v ≤ f.range.2 ∧ (f ≠ .mode ∨ modeTakable c = true) then (v, old.2) else (old.1, old.2.1, old.2.2.1, true)
    else if v < f.range.1 ∨ f.range.2 < v then (clampNat f.range.1 f.range.2 v, true, old.2.2)
    else (v, old.2)

theorem judgeField_part (c : Cycle) (st : Staging) (j : Judged) (f g : PocketField) :
    (judgeField c st j f).part g = if g = f then fieldPart c st f (j.part g) else j.part g := by
  by_cases same : g = f
  · subst same
    unfold judgeField fieldPart
    cases touchOf st.touched g.offset g.size <;> dsimp only
    case untouched => exact (if_pos rfl).symm
    case torn => simp [Judged.part, fieldBit_getLsbD]
    case whole => split <;> split <;> simp [Judged.part, fieldBit_getLsbD, Tuning.get_set]
  · rw [if_neg same]
    unfold judgeField
    cases touchOf st.touched f.offset f.size <;> dsimp only
    case torn => simp [Judged.part, fieldBit_getLsbD, same]
    case whole => split <;> split <;> simp [Judged.part, fieldBit_getLsbD, Tuning.get_set, same]

/-- A field that is not among those judged keeps its part. -/
theorem foldl_judgeField_part (c : Cycle) (st : Staging) {f : PocketField} {fields : List PocketField} (j : Judged)
    (other : f ∉ fields) : (fields.foldl (judgeField c st) j).part f = j.part f := by
  induction fields generalizing j with
  | nil => rfl
  | cons g rest ih =>
    obtain ⟨ne, notIn⟩ := not_or.1 (mt List.mem_cons.2 other)
    rw [List.foldl_cons, ih _ notIn, judgeField_part, if_neg ne]

/-- Each field is judged by its own bytes alone (R7). -/
theorem judgeFields_part (u : PocketUnit) (st : Staging) (f : PocketField) :
    (judgeFields u st).part f = fieldPart u.cycle st f (u.tuning.get f, false, false, false) := by
  obtain ⟨before, after, split⟩ := List.append_of_mem f.mem_pocketFields
  have distinct : pocketFields.Nodup := by decide
  rw [split] at distinct
  obtain ⟨-, tail, apart⟩ := List.nodup_append.1 distinct
  have notAfter := (List.nodup_cons.1 tail).1
  have notBefore : f ∉ before := fun mem => apart f mem f List.mem_cons_self rfl
  rw [judgeFields, split, List.foldl_append, List.foldl_cons, foldl_judgeField_part _ _ _ notAfter, judgeField_part,
    if_pos rfl, foldl_judgeField_part _ _ _ notBefore]
  simp [Judged.part]

/-! ## The statement's terms -/

theorem touchOf_eq (touched : List Bool) (off size : Nat) :
    touchOf touched off size =
      if true ∉ (touched.drop off).take size then .untouched
      else if false ∉ (touched.drop off).take size then .whole else .torn := by
  have untouched : ((touched.drop off).take size).all (fun t => !t) = true ↔ true ∉ (touched.drop off).take size := by
    simp [List.all_eq_true]
  have whole : ((touched.drop off).take size).all id = true ↔ false ∉ (touched.drop off).take size := by
    simp [List.all_eq_true]
  unfold touchOf
  simp only [untouched, whole]

theorem fromLe_take_two (bytes : List Byte) (off size : Nat) (h : size = 1 ∨ size = 2) :
    stagedValue bytes off size =
      if size = 2 then (bytes.getD off 0).toNat + 256 * (bytes.getD (off + 1) 0).toNat else (bytes.getD off 0).toNat := by
  unfold stagedValue
  have first : bytes.getD off 0 = (bytes.drop off).getD 0 0 := by simp [List.getD_eq_getElem?_getD]
  have second : bytes.getD (off + 1) 0 = (bytes.drop off).getD 1 0 := by simp [List.getD_eq_getElem?_getD]
  rw [first, second]
  obtain rfl | rfl := h <;> rcases bytes.drop off with _ | ⟨x, _ | ⟨y, rest⟩⟩ <;> simp [fromLe]

theorem modeTakable_iff (c : Cycle) :
    modeTakable c = true ↔
      let from_ := if c.state = .held then c.holdFrom else some c.state
      from_ = some .idle ∨ from_ = some .done ∨ from_ = some .faulted := by
  unfold modeTakable
  by_cases held : c.state = .held
  · cases hold : c.holdFrom with
    | none => simp [held]
    | some s => cases s <;> simp [held]
  · cases state : c.state <;> simp_all

theorem clampNat_eq {lo hi : Nat} (h : lo ≤ hi) (v : Nat) : clampNat lo hi v = max lo (min hi v) := by
  unfold clampNat
  split
  · omega
  · split <;> omega

/-- Settles O16: each field's part of the judgement, and each field's bytes of the restored record. -/
theorem fieldsAreJudgedByTheTouchedMap : Obligations.FieldsAreJudgedByTheTouchedMap := by
  unfold Obligations.FieldsAreJudgedByTheTouchedMap
  intro rows
  have table : rows = pocketFields.map fun f => (f, f.number, f.offset, f.size, f.range.1, f.range.2) := rfl
  have row : ∀ {f number off size lo hi}, (f, number, off, size, lo, hi) ∈ rows →
      number = f.number ∧ off = f.offset ∧ size = f.size ∧ lo = f.range.1 ∧ hi = f.range.2 := by
    intro f number off size lo hi mem
    rw [table] at mem
    obtain ⟨g, -, e⟩ := List.mem_map.1 mem
    simp only [Prod.mk.injEq] at e
    obtain ⟨rfl, rfl, rfl, rfl, rfl, rfl⟩ := e
    exact ⟨rfl, rfl, rfl, rfl, rfl⟩
  refine ⟨fun f => ?_, fun t bytes => ⟨fun f number off size lo hi mem k below inside => ?_, fun i inside outside => ?_,
    restoreFields_length t pocketFields⟩, fun u st f number off size lo hi mem => ?_⟩
  · rw [table, List.map_map]
    exact List.mem_map.2 ⟨f, f.mem_pocketFields, rfl⟩
  · obtain ⟨-, rfl, rfl, -, -⟩ := row mem
    have value := restoreFields_field t inside ⟨Nat.le_add_right _ _, by omega⟩ (.inl f.mem_pocketFields)
    rwa [Nat.add_sub_cancel_left] at value
  · refine restoreFields_outside t inside fun f _ ⟨low, high⟩ => ?_
    have place : 0x03 ≤ f.offset ∧ f.offset + f.size ≤ 0x18 := by cases f <;> decide
    omega
  · obtain ⟨rfl, rfl, rfl, rfl, rfl⟩ := row mem
    intro j byte v touched from_ modeOpen ok bits
    have part := judgeFields_part u st f
    have size : f.size = 1 ∨ f.size = 2 := by cases f <;> decide
    have ordered : f.range.1 ≤ f.range.2 := by cases f <;> decide
    have value : stagedValue st.bytes f.offset f.size = v := fromLe_take_two _ _ _ size
    rw [fieldPart, touchOf_eq, value] at part
    have code : f.isCode = true ↔ f = .mode ∨ f = .crease := by cases f <;> decide
    have takable : v ≤ f.range.2 ∧ (f ≠ .mode ∨ modeTakable u.cycle = true) ↔ ok := by
      rw [modeTakable_iff, ← imp_iff_not_or]
    refine ⟨fun none => ?_, fun some part_ => ?_, fun some all => ?_⟩
    · rw [if_pos none] at part
      simpa [Judged.part] using part
    · rw [if_neg (not_not.2 some), if_neg (not_not.2 part_)] at part
      simpa [Judged.part] using part
    · rw [if_neg (not_not.2 some), if_pos all] at part
      simp only [code, takable] at part
      split <;> rename_i isCode
      · simp only [isCode, if_true] at part
        by_cases open_ : ok
        · rw [if_pos open_] at part
          simp only [Judged.part, Prod.mk.injEq] at part
          obtain ⟨value, clamped, torn, refused⟩ := part
          exact ⟨fun _ => ⟨value, refused⟩, fun no => absurd open_ no, clamped, torn⟩
        · rw [if_neg open_] at part
          simp only [Judged.part, Prod.mk.injEq] at part
          obtain ⟨value, clamped, torn, refused⟩ := part
          exact ⟨fun yes => absurd yes open_, fun _ => ⟨value, refused⟩, clamped, torn⟩
      · simp only [isCode, if_false] at part
        by_cases outside : v < f.range.1 ∨ f.range.2 < v
        · rw [if_pos outside, clampNat_eq ordered] at part
          simp only [Judged.part, Prod.mk.injEq] at part
          obtain ⟨value, clamped, torn, refused⟩ := part
          exact ⟨value, iff_of_true clamped outside, torn, refused⟩
        · rw [if_neg outside] at part
          simp only [Judged.part, Prod.mk.injEq] at part
          obtain ⟨value, clamped, torn, refused⟩ := part
          have inside : max f.range.1 (min f.range.2 v) = v := by omega
          exact ⟨value.trans inside.symm, iff_of_false (Bool.eq_false_iff.1 clamped) outside, torn, refused⟩

end Sys2Proof.Machine
end

section
/-! SUPPORT. The sequencer's operations as changes of their one pocket, and the actions of a commit answered by them (R21, R23,
R25 to R28, R34 to R43). -/

namespace Sys2Proof.Machine

/-! ## Entries with a lockout condition (R41, R43) -/

theorem Drum.askedToStop_askedToStop (d : Drum) : d.askedToStop.askedToStop = d.askedToStop := by
  obtain ⟨st, _⟩ := d
  cases st <;> rfl

/-- A pocket that has entered a state while the condition of this cause, if any, holds. -/
def PocketUnit.entered (cause : Option Lockout) (u : PocketUnit) : PocketUnit :=
  match cause with
  | none => u
  | some k => u.lockedOut k

namespace Blocks

variable {b : Blocks} {p : Pocket}

/-- The lockout conditions are the exhaust channel's and the cutout's. -/
theorem modPocket_lockoutConditions {f : PocketUnit → PocketUnit} (exhaust : (f (b.pocket p)).exhaust = (b.pocket p).exhaust) :
    (b.modPocket p f).lockoutConditions p = b.lockoutConditions p := by
  simp only [lockoutConditions, overheat, exhaustFaulted, modPocket_pocket, exhaust]
  cases p <;> rfl

/-- With one cause at most, an entry takes no free choice. -/
theorem entryLockout_of_oneCause (one : b.OneCause p) :
    b.entryLockout p = b.modPocket p (PocketUnit.entered (b.lockoutConditions p).head?) := by
  unfold entryLockout
  split
  case isTrue recorded =>
    refine (b.modPocket_id p).symm.trans (modPocket_congr ?_)
    cases (b.lockoutConditions p).head? <;> simp [PocketUnit.entered, PocketUnit.lockedOut, recorded]
  case isFalse none =>
    have short := one.resolve_left none
    generalize b.lockoutConditions p = conditions at short ⊢
    rcases conditions with _ | ⟨k, _ | ⟨l, rest⟩⟩
    · exact (b.modPocket_id p).symm
    · exact b.lockoutFault_eq p k
    · simp at short

/-- A state entered by a change of the pocket that keeps its exhaust channel and its lockout cause. -/
theorem entryLockout_modPocket {f : PocketUnit → PocketUnit} (one : b.OneCause p)
    (keeps : (f (b.pocket p)).exhaust = (b.pocket p).exhaust ∧
      (f (b.pocket p)).cycle.lockout = (b.pocket p).cycle.lockout) :
    (b.modPocket p f).entryLockout p =
      b.modPocket p fun u => (f u).entered (b.lockoutConditions p).head? := by
  obtain ⟨exhaust, lockout⟩ := keeps
  have conditions := modPocket_lockoutConditions exhaust
  have still : (b.modPocket p f).OneCause p := by rwa [OneCause, conditions, modPocket_pocket, lockout]
  rw [entryLockout_of_oneCause still, conditions, modPocket_modPocket]

/-- COOLING entered (R34, R41). -/
theorem enterCooling_eq (one : b.OneCause p) (flag : Option EndFlag) :
    b.enterCooling p flag = b.modCycle p fun c =>
      { c with
        state := .cooling, startTarget := none, endFlag := flag <|> c.endFlag, lockout := b.causeAtEntry p } := by
  unfold enterCooling modCycle
  rw [entryLockout_modPocket one ⟨rfl, rfl⟩]
  refine modPocket_congr ?_
  unfold causeAtEntry
  cases recorded : (b.pocket p).cycle.lockout <;> cases (b.lockoutConditions p).head? <;>
    simp [PocketUnit.entered, PocketUnit.lockedOut, recorded]

/-- A pause: PAUSED, or FAULTED with a cause recorded or a condition holding (R23, R41, R43). -/
theorem pausePocket_eq (one : b.OneCause p) :
    b.pausePocket p = b.modPocket p fun u =>
      { u with
        cycle :=
          { u.cycle with
            state := if (b.causeAtEntry p).isSome then .faulted else .paused
            resume := if (b.causeAtEntry p).isSome then none else u.cycle.resumeState
            startTarget := none, lockout := b.causeAtEntry p }
        drum := u.drum.askedToStop } := by
  unfold pausePocket
  split
  case isTrue recorded =>
    obtain ⟨k, recorded⟩ := Option.isSome_iff_exists.1 recorded
    have cause : b.causeAtEntry p = some k := by simp [causeAtEntry, recorded]
    rw [goFaulted_eq]
    exact modPocket_congr (by simp [cause, recorded])
  case isFalse none =>
    have cause : b.causeAtEntry p = (b.lockoutConditions p).head? := by
      simp [causeAtEntry, Option.not_isSome_iff_eq_none.1 none]
    unfold stopDrum modDrum modCycle
    rw [modPocket_modPocket, entryLockout_modPocket one ⟨rfl, rfl⟩, cause]
    refine modPocket_congr ?_
    cases (b.lockoutConditions p).head? <;>
      simp [PocketUnit.entered, PocketUnit.lockedOut, Drum.stopRequest_eq, Drum.askedToStop_askedToStop,
        Option.not_isSome_iff_eq_none.1 none]

end Blocks

/-! ## Accepted actions (R21, R45) -/

/-- A pocket as a take leaves it, its freshness reloaded (R45). -/
def PocketUnit.refreshed (fresh : Nat) (u : PocketUnit) : PocketUnit :=
  { u with cycle := { u.cycle with freshness := fresh } }

theorem CycleState.isActive_iff {s : CycleState} :
    s.isActive = true ↔ s = .starting ∨ s = .drying ∨ s = .extending ∨ s = .cooling := by cases s <;> decide

/-- An accepted action that changes its pocket alone, neither its fields nor its stages. -/
theorem State.settlesAs_of_accepted {s : State} {p : Pocket} {seq : Byte} (ready : s.CommitReady (.pocket p) 24 seq)
    (a : Action) (free : (s.blocks.pocket p).cycle.state ≠ .held) {f g : PocketUnit → PocketUnit}
    (answers : s.blocks.answerAction p a = (.accepted, s.blocks.modPocket p f))
    (keeps : ∀ u, (f u).tuning = u.tuning ∧ (f u).stage1 = u.stage1 ∧ (f u).stage2 = u.stage2)
    (same : (f (s.blocks.pocket p)).refreshed s.blocks.freshSeconds = g (s.blocks.pocket p)) :
    s.SettlesAs (a.command p seq) (s.afterCommit p seq a.code .accepted) (s.blocks.modPocket p g) := by
  have fresh : (s.blocks.modPocket p f).freshSeconds = s.blocks.freshSeconds := by cases p <;> rfl
  refine State.settlesAs_of_answer ready a free answers ?tuning (s.blocks.modPocket_sameLists p f fun u => (keeps u).2) ?_
  case tuning => rw [Blocks.modPocket_pocket, (keeps _).1]
  rw [Blocks.afterAnswer_accepted, Blocks.reloadFreshness, fresh, Blocks.modCycle, Blocks.modPocket_modPocket]
  exact Blocks.modPocket_congr same

/-- Settles O23: the answer in an active state and in the others. -/
theorem pauseStopsTheCycle : Obligations.PauseStopsTheCycle := by
  intro s p seq ready
  refine ⟨fun active one => ?accepted, fun inactive free => ?refused⟩
  case accepted =>
    have isActive := CycleState.isActive_iff.2 active
    have free := Cycle.ne_held_of_active isActive
    have answers : s.blocks.answerAction p .pause = (.accepted, s.blocks.pausePocket p) := if_pos isActive
    rw [Blocks.pausePocket_eq one] at answers
    exact State.settlesAs_of_accepted ready .pause free answers (fun _ => ⟨rfl, rfl, rfl⟩) rfl
  case refused =>
    exact State.turnsAway_of_notNow ready .pause free (if_neg (mt CycleState.isActive_iff.1 inactive))

/-- Settles O25: the answer in a heating state and in the others. -/
theorem advanceGoesToCooling : Obligations.AdvanceGoesToCooling := by
  intro s p seq ready
  refine ⟨fun heating one => ?accepted, fun notDrying notExtending free => ?refused⟩
  case accepted =>
    have free : (s.blocks.pocket p).cycle.state ≠ .held := by rintro held; simp [held] at heating
    have answers : s.blocks.answerAction p .advance = (.accepted, s.blocks.enterCooling p (some .advanced)) :=
      if_pos (CycleState.heating_iff.2 heating)
    rw [Blocks.enterCooling_eq one] at answers
    exact State.settlesAs_of_accepted ready .advance free answers (fun _ => ⟨rfl, rfl, rfl⟩) rfl
  case refused =>
    refine State.turnsAway_of_notNow ready .advance free (if_neg (mt CycleState.heating_iff.1 ?_))
    exact not_or.2 ⟨notDrying, notExtending⟩

/-- Settles O26: the answer of each state's row of R26's table. -/
theorem abortIsAnsweredByState : Obligations.AbortIsAnsweredByState := by
  intro s p seq ready
  refine ⟨fun state one => ?toCooling, fun state => ?inCooling, fun state => ?toIdle, fun state => ?refused⟩
  all_goals
    have free : (s.blocks.pocket p).cycle.state ≠ .held := by rintro held; simp [held] at state
  case toCooling =>
    have answers : s.blocks.answerAction p .abort = (.accepted, s.blocks.enterCooling p (some .aborted)) := by
      obtain state | state | state := state <;> simp [Blocks.answerAction, Blocks.answerAbort, state]
    rw [Blocks.enterCooling_eq one] at answers
    exact State.settlesAs_of_accepted ready .abort free answers (fun _ => ⟨rfl, rfl, rfl⟩) rfl
  case inCooling =>
    have answers : s.blocks.answerAction p .abort =
        (.accepted, s.blocks.modCycle p fun c => { c with endFlag := some .aborted }) := by
      simp [Blocks.answerAction, Blocks.answerAbort, state]
    exact State.settlesAs_of_accepted ready .abort free answers (fun _ => ⟨rfl, rfl, rfl⟩) rfl
  case toIdle =>
    have answers : s.blocks.answerAction p .abort =
        (.accepted, (s.blocks.modCycle p fun c => { c with endFlag := some .aborted }).enterIdle p) := by
      obtain state | state := state <;> simp [Blocks.answerAction, Blocks.answerAbort, state]
    rw [Blocks.enterIdle_eq, Blocks.modCycle, Blocks.modPocket_modPocket] at answers
    exact State.settlesAs_of_accepted ready .abort free answers (fun _ => ⟨rfl, rfl, rfl⟩) rfl
  case refused =>
    refine State.turnsAway_of_notNow ready .abort free ?_
    obtain state | state | state := state <;> simp [Blocks.answerAction, Blocks.answerAbort, state]

/-- What CLEAR asks of the pocket (R27). -/
def Blocks.MayClear (b : Blocks) (p : Pocket) : Prop :=
  let c := (b.pocket p).cycle
  c.state = .done ∨ (c.state = .faulted ∧ ∀ k, c.lockout = some k → b.causeGone p k = true)

theorem Blocks.answerClear_of_may {b : Blocks} {p : Pocket} (may : b.MayClear p) :
    b.answerClear p =
      (.accepted, b.modCycle p fun c =>
        { c with state := .idle, lockout := if c.state = .done then c.lockout else none }) := by
  unfold Blocks.answerClear
  obtain done | ⟨faulted, gone⟩ := may
  · simp only [done]
    exact congrArg (Prod.mk _) (Blocks.modPocket_congr (by simp [done]))
  · have idle : b.modCycle p (fun c => { c with state := .idle, lockout := none }) =
        b.modCycle p fun c => { c with state := .idle, lockout := if c.state = .done then c.lockout else none } :=
      Blocks.modPocket_congr (by simp [faulted])
    simp only [faulted]
    cases recorded : (b.pocket p).cycle.lockout with
    | none => exact congrArg (Prod.mk _) idle
    | some k => exact (if_pos (gone k recorded)).trans (congrArg (Prod.mk _) idle)

theorem Blocks.answerClear_of_not {b : Blocks} {p : Pocket} (unmet : ¬b.MayClear p) :
    b.answerClear p = (.notNow, b) := by
  unfold Blocks.MayClear at unmet
  obtain ⟨notDone, notGone⟩ := not_or.1 unmet
  unfold Blocks.answerClear
  dsimp only
  split
  · contradiction
  · rename_i faulted
    split
    · rename_i k recorded
      exact if_neg fun gone => notGone ⟨faulted, fun l same => by rwa [← Option.some.inj (recorded.symm.trans same)]⟩
    · rename_i none
      exact absurd ⟨faulted, fun k recorded => by simp [none] at recorded⟩ notGone
  · rfl

/-- Settles O27: the recorded cause is gone by R27's table, or there is none. -/
theorem clearReturnsToIdle : Obligations.ClearReturnsToIdle := by
  intro s p seq ready u gone mayClear
  have goneIff : ∀ k, s.blocks.causeGone p k = true ↔ gone (some k) := by
    intro k
    cases k with
    | overheat => cases t : (s.blocks.pocket p).exhaust.filtered <;> simp [Blocks.causeGone, gone, u, t]
    | highLimit => simp [Blocks.causeGone, gone]
    | sensor => simp [Blocks.causeGone, gone, Blocks.exhaustFaulted, u]
    | stale => simp [Blocks.causeGone, gone]
    | drum => simp [Blocks.causeGone, gone, u, and_assoc]
  have mayIff : s.blocks.MayClear p ↔ mayClear := by
    refine or_congr_right (and_congr_right fun _ => ?_)
    change (∀ k, u.cycle.lockout = some k → _) ↔ gone u.cycle.lockout
    cases u.cycle.lockout with
    | none => simp [gone]
    | some k => simp [goneIff]
  refine ⟨fun may => ?accepted, fun unmet free => ?refused⟩
  case accepted =>
    have free : (s.blocks.pocket p).cycle.state ≠ .held := by
      rintro held
      obtain done | ⟨faulted, -⟩ := mayIff.2 may <;> simp_all
    exact State.settlesAs_of_accepted ready .clear free (Blocks.answerClear_of_may (mayIff.2 may))
      (fun _ => ⟨rfl, rfl, rfl⟩) rfl
  case refused =>
    exact State.turnsAway_of_notNow ready .clear free (Blocks.answerClear_of_not (mt mayIff.1 unmet))

/-! ## HELD, illegal codes and NONE (R8, R10, R21, R48) -/

/-- A STORE frame of SEQ and any ACTION code, whatever its answer. -/
theorem State.passStore_of_ready {s : State} {p : Pocket} {seq : Byte} (ready : s.CommitReady (.pocket p) 24 seq)
    (code : Byte) {result : ActionResult} {b : Blocks} (answers : s.blocks.answerCode p code.toNat = (result, b))
    (tuning : (b.pocket p).tuning = (s.blocks.pocket p).tuning) :
    s.passStore (s.demandAddress (recordOffset (.pocket p))) [seq, code] .clean =
      s.afterCommit p seq code result (b.afterAnswer p seq result).settle := by
  obtain ⟨run, captures, access, untouched, new⟩ := ready
  rw [State.passStore_of_due access (State.storeBytes_commit captures p seq code)
      ((s.commitStored_captures p seq code).trans captures) (State.commitStored_dueTakes new code),
    State.takeRecord,
    State.takePocketRecord_of_action (s.commitStored_staging p seq code) untouched seq answers tuning]
  cases p <;> rfl

theorem Blocks.answerCode_illegal (b : Blocks) (p : Pocket) {code : Nat} (h : 6 < code) :
    b.answerCode p code = (.illegal, b) := by
  have none : actionOfCode code = none := by
    unfold actionOfCode
    split <;> simp_all
  rw [Blocks.answerCode, if_neg (by omega), none]

theorem Action.answerCode_of_held (a : Action) {b : Blocks} {p : Pocket} (held : (b.pocket p).cycle.state = .held) :
    b.answerCode p a.code.toNat = (.held, b) := by
  cases a <;> exact if_pos held

/-- Settles O28: code 0, codes above 6 and the six actions in HELD. -/
theorem heldAndIllegalActionsChangeNothing : Obligations.HeldAndIllegalActionsChangeNothing := by
  intro s p seq ready b
  have powered : s.phase ≠ .off := by simp [ready.1]
  have settles : ∀ (c : Instr) (code : Byte) (result : ActionResult),
      exec c s = .next (s.passStore (s.demandAddress (recordOffset (.pocket p))) [seq, code] .clean) →
      s.blocks.answerCode p code.toNat = (result, s.blocks) →
      s.SettlesAs c (s.afterCommit p seq code result) (s.blocks.afterAnswer p seq result) := fun c code result run answers =>
    State.settlesAs_of_settle (run.trans (by rw [State.passStore_of_ready ready code answers rfl])) rfl
      (s.blocks.afterAnswer_sameLists p seq result)
  have raised : ∀ result, (TakeResult.ofAction seq result).raises = true → s.blocks.afterAnswer p seq result = b :=
    fun result raises => by rw [Blocks.afterAnswer, Blocks.raiseTake, if_pos raises, Blocks.raiseCause_take]; rfl
  refine ⟨fun held a => ?_, fun code illegal => ?_, ?_⟩
  · rw [← raised .held rfl]
    refine settles _ _ _ ?_ (a.answerCode_of_held held)
    rw [exec_command, State.commitAction, State.whilePowered, if_neg powered]
  · rw [← raised .illegal rfl]
    exact settles _ _ _ (exec_storeFrame powered ..) (Blocks.answerCode_illegal _ _ illegal)
  · exact settles _ _ _ (exec_storeFrame powered ..) rfl

end Sys2Proof.Machine
end

section
/-! SUPPORT. The fault list and the acknowledgement of causes (R152, R153, R156). -/

namespace Sys2Proof.Machine

/-- The list with an entry at its end, of sixteen at most. -/
theorem appendEntry_eq {faults : List FaultEntry} (short : faults.length ≤ 16) (e : FaultEntry) :
    appendEntry faults e = (if faults.length = 16 then faults.tail else faults) ++ [e] := by
  unfold appendEntry
  split
  case isTrue full => rw [full, ← List.drop_one]
  case isFalse => rw [show faults.length - 15 = 0 by omega, List.drop_zero]

/-- Settles O29: a pending cause, an edge cause and a fault cause. -/
theorem raisedCauseIsLogged : Obligations.RaisedCauseIsLogged := by
  intro b k short a entry
  have sameEntry : b.entryFor k = entry := by
    unfold Blocks.entryFor
    cases e : k.pocketOf <;> simp [entry, e, a]
  unfold Blocks.raiseCause Blocks.makePending
  rw [appendEntry_eq short, sameEntry]
  split
  · rfl
  · by_cases fault : k.number < 12 <;> simp [Cause.isFault, fault, a]

/-! ## Several causes pending one after the other -/

/-- The entries that these causes make, from a serial on. -/
def Blocks.entriesFrom (b : Blocks) : Byte → List Cause → List FaultEntry
  | _, [] => []
  | serial, k :: rest => { b.entryFor k with serial := serial } :: b.entriesFrom (serial + 1) rest

theorem Blocks.entriesFrom_length (b : Blocks) (serial : Byte) (ks : List Cause) :
    (b.entriesFrom serial ks).length = ks.length := by
  induction ks generalizing serial with
  | nil => rfl
  | cons k rest ih => simp [Blocks.entriesFrom, ih]

/-- The set with these causes added. -/
def addCauses (ks : List Cause) (set : BitVec 16) : BitVec 16 := ks.foldl (fun set k => set ||| k.bit) set

/-- The blocks with these causes pending and logged in their order, none of which was pending. -/
def Blocks.logged (b : Blocks) (ks : List Cause) : Blocks :=
  { b with alerts :=
    { b.alerts with
      pending := addCauses ks b.alerts.pending
      faults :=
        (b.alerts.faults ++ b.entriesFrom b.alerts.nextSerial ks).drop (b.alerts.faults.length + ks.length - 16)
      nextSerial := b.alerts.nextSerial + BitVec.ofNat 8 ks.length } }

theorem Blocks.entriesFrom_makePending (b : Blocks) (k : Cause) (serial : Byte) (ks : List Cause) :
    (b.makePending k).entriesFrom serial ks = b.entriesFrom serial ks := by
  induction ks generalizing serial with
  | nil => rfl
  | cons l rest ih =>
    rw [Blocks.entriesFrom, Blocks.entriesFrom, ih]
    simp [Blocks.entryFor, Blocks.makePending_pocket]

theorem inSet_or_bit (set : BitVec 16) {k l : Cause} (apart : k.number ≠ l.number) :
    inSet (set ||| k.bit) l = inSet set l := by
  have other : k.bit.getLsbD l.number = false := by
    simp only [Cause.bit, BitVec.getLsbD_shiftLeft, BitVec.getLsbD_one]
    grind
  simp [inSet, other]

/-- Distinct fault causes, none of them pending, made pending one after the other. -/
theorem Blocks.foldl_makePending {b : Blocks} {ks : List Cause} (short : b.alerts.faults.length ≤ 16)
    (fresh : ∀ k ∈ ks, inSet b.alerts.pending k = false) (faults : ∀ k ∈ ks, k.isFault = true)
    (apart : ks.Pairwise fun k l => k.number ≠ l.number) : ks.foldl Blocks.makePending b = b.logged ks := by
  induction ks generalizing b with
  | nil =>
    have none : b.alerts.faults.length - 16 = 0 := by omega
    simp [Blocks.logged, addCauses, Blocks.entriesFrom, none]
  | cons k rest ih =>
    obtain ⟨others, apart⟩ := List.pairwise_cons.1 apart
    have made : b.makePending k =
        { b with alerts :=
          { b.alerts with
            pending := b.alerts.pending ||| k.bit
            faults := appendEntry b.alerts.faults (b.entryFor k)
            nextSerial := b.alerts.nextSerial + 1 } } := by
      rw [Blocks.makePending, fresh k List.mem_cons_self, faults k List.mem_cons_self]
      rfl
    have entries := b.entriesFrom_makePending k (b.alerts.nextSerial + 1) rest
    rw [List.foldl_cons, made] at *
    have length : (appendEntry b.alerts.faults (b.entryFor k)).length = min b.alerts.faults.length 15 + 1 := by
      simp [appendEntry]; omega
    rw [ih (by rw [length]; omega) ?fresh (fun l mem => faults l (List.mem_cons_of_mem _ mem)) apart]
    case fresh =>
      intro l mem
      exact (inSet_or_bit _ (others l mem)).trans (fresh l (List.mem_cons_of_mem _ mem))
    have list : (appendEntry b.alerts.faults (b.entryFor k) ++ b.entriesFrom (b.alerts.nextSerial + 1) rest).drop
          ((appendEntry b.alerts.faults (b.entryFor k)).length + rest.length - 16) =
        (b.alerts.faults ++ b.entryFor k :: b.entriesFrom (b.alerts.nextSerial + 1) rest).drop
          (b.alerts.faults.length + (rest.length + 1) - 16) := by
      rw [length, appendEntry_eq short]
      by_cases full : b.alerts.faults.length = 16
      · obtain ⟨e, more, split⟩ := List.exists_cons_of_length_eq_add_one full
        rw [if_pos full, full, split]
        simp [show 16 + (rest.length + 1) - 16 = rest.length + 1 by omega]
      · rw [if_neg full, show min b.alerts.faults.length 15 + 1 + rest.length - 16 =
          b.alerts.faults.length + (rest.length + 1) - 16 by omega]
        simp
    have serial : b.alerts.nextSerial + 1 + BitVec.ofNat 8 rest.length =
        b.alerts.nextSerial + BitVec.ofNat 8 (rest.length + 1) := by
      rw [BitVec.ofNat_add, BitVec.add_comm (BitVec.ofNat 8 rest.length), BitVec.add_assoc]
      rfl
    unfold Blocks.logged
    simp only [entries, list, serial, Blocks.entriesFrom, List.length_cons]
    rfl

/-! ## The acknowledgement (R153) -/

theorem Blocks.pendAgain_eq (acked : BitVec 16) (ks : List Cause) (b : Blocks) :
    Blocks.pendAgain acked ks b =
      (ks.filter fun k => inSet acked k && inSet b.alerts.presented k).foldl Blocks.makePending b := by
  induction ks generalizing b with
  | nil => rfl
  | cons k rest ih =>
    rw [Blocks.pendAgain, ih]
    split
    case isTrue again =>
      obtain ⟨-, -, presented⟩ := b.makePending_otherSets k
      simp only [presented, List.filter_cons, again, if_true, List.foldl_cons]
    case isFalse stays => rw [List.filter_cons, if_neg stays]

theorem addCauses_getLsbD (ks : List Cause) (set : BitVec 16) {i : Nat} (h : i < 16) :
    (addCauses ks set).getLsbD i = (set.getLsbD i || ks.any fun k => k.number == i) := by
  induction ks generalizing set with
  | nil => simp [addCauses]
  | cons k rest ih =>
    have bit : k.bit.getLsbD i = (k.number == i) := by
      simp only [Cause.bit, BitVec.getLsbD_shiftLeft, BitVec.getLsbD_one]
      grind
    refine (ih (set ||| k.bit)).trans ?_
    rw [BitVec.getLsbD_or, bit, List.any_cons, Bool.or_assoc]

/-- The level causes of a set, added to another. -/
theorem addCauses_levelCauses (set base : BitVec 16) :
    addCauses (levelCauses.filter fun k => set.getLsbD k.number) base = base ||| (set &&& 0x020C) := by
  refine BitVec.eq_of_getLsbD_eq fun i hi => ?_
  rw [addCauses_getLsbD _ _ hi, BitVec.getLsbD_or, BitVec.getLsbD_and]
  congr 1
  have byBit : ∀ x y z : Bool, ∀ i < 16,
      (x && (2 == i) || (y && (3 == i) || z && (9 == i))) =
        ((if i = 2 then x else if i = 3 then y else if i = 9 then z else false) && (0x020C#16).getLsbD i) := by decide
  have eachBit : ((levelCauses.filter fun k => set.getLsbD k.number).any fun k => k.number == i) =
      (set.getLsbD 2 && (2 == i) || (set.getLsbD 3 && (3 == i) || set.getLsbD 9 && (9 == i))) := by
    rw [List.any_filter]
    simp [levelCauses, Cause.number]
  rw [eachBit, byBit _ _ _ i hi]
  by_cases two : i = 2
  · simp [two]
  · by_cases three : i = 3
    · simp [three]
    · by_cases nine : i = 9
      · simp [nine]
      · have none : (0x020C#16).getLsbD i = false := by
          have table : ∀ i < 16, i ≠ 2 → i ≠ 3 → i ≠ 9 → (0x020C#16).getLsbD i = false := by decide
          exact table i hi two three nine
        simp [none]

/-- What an acknowledgement leaves: the named causes removed, and the level causes presented pending and logged again. -/
theorem Blocks.acknowledge_eq (b : Blocks) (causes : BitVec 16) (short : b.alerts.faults.length ≤ 16) :
    let again := causes &&& (b.alerts.pending ||| b.alerts.forced) &&& b.alerts.presented &&& 0x020C
    let pend := levelCauses.filter fun k => again.getLsbD k.number
    b.acknowledge causes =
      { b with alerts :=
        { b.alerts with
          pending := (b.alerts.pending &&& ~~~causes) ||| again, forced := b.alerts.forced &&& ~~~causes
          faults := (b.alerts.faults ++ b.entriesFrom b.alerts.nextSerial pend).drop
            (b.alerts.faults.length + pend.length - 16)
          nextSerial := b.alerts.nextSerial + BitVec.ofNat 8 pend.length } } := by
  intro again pend
  let removed : Blocks := { b with alerts :=
    { b.alerts with pending := b.alerts.pending &&& ~~~causes, forced := b.alerts.forced &&& ~~~causes } }
  have members : (levelCauses.filter fun k =>
      inSet (causes &&& (b.alerts.pending ||| b.alerts.forced)) k && inSet removed.alerts.presented k) = pend := by
    refine List.filter_congr fun k level => ?_
    have inMask : (0x020C : BitVec 16).getLsbD k.number = true := by
      revert k
      decide
    simp only [inSet, removed, again, BitVec.getLsbD_and, inMask, Bool.and_true]
  have fresh : ∀ k ∈ pend, inSet removed.alerts.pending k = false := by
    intro k mem
    have named : again.getLsbD k.number = true := (List.mem_filter.1 mem).2
    simp only [again, BitVec.getLsbD_and, Bool.and_eq_true] at named
    simp [inSet, removed, named]
  have faults : ∀ k ∈ pend, k.isFault = true := fun k mem =>
    (by decide : ∀ k ∈ levelCauses, k.isFault = true) k (List.mem_of_mem_filter mem)
  have apart : pend.Pairwise fun k l => k.number ≠ l.number :=
    (by decide : levelCauses.Pairwise fun k l => k.number ≠ l.number).filter _
  have added : addCauses pend (b.alerts.pending &&& ~~~causes) = (b.alerts.pending &&& ~~~causes) ||| again := by
    rw [addCauses_levelCauses]
    congr 1
    simp [again, BitVec.and_assoc]
  have entries : ∀ serial, removed.entriesFrom serial pend = b.entriesFrom serial pend := by
    intro serial
    generalize pend = ks
    induction ks generalizing serial with
    | nil => rfl
    | cons k rest ih => rw [Blocks.entriesFrom, ih]; rfl
  unfold Blocks.acknowledge
  rw [Blocks.pendAgain_eq, members, Blocks.foldl_makePending (b := removed) short fresh faults apart, Blocks.logged, added,
    entries]

/-- The statement's list of new entries. -/
theorem Blocks.entriesFrom_levelCauses (b : Blocks) {ks : List Cause} (level : ∀ k ∈ ks, k ∈ levelCauses) (n : Nat)
    {entry : Cause × Nat → FaultEntry}
    (same : ∀ k ∈ levelCauses, ∀ i, entry (k, i) =
      { b.entryFor k with serial := b.alerts.nextSerial + BitVec.ofNat 8 i }) :
    b.entriesFrom (b.alerts.nextSerial + BitVec.ofNat 8 n) ks = (ks.zipIdx n).map entry := by
  induction ks generalizing n with
  | nil => rfl
  | cons k rest ih =>
    rw [Blocks.entriesFrom, List.zipIdx_cons, List.map_cons, same k (level k List.mem_cons_self),
      ← ih (fun l mem => level l (List.mem_cons_of_mem _ mem)), BitVec.add_assoc, BitVec.ofNat_add]
    rfl

end Sys2Proof.Machine
end

section
/-! SUPPORT. The take of the common record (R9, R97, R153, R157, R166), ALERT and the top cause (R155). -/

namespace Sys2Proof.Machine

/-! ## The judgement of the common fields -/

theorem touchOf_one {touched : List Bool} {off : Nat} (h : off < touched.length) :
    touchOf touched off 1 = if touched.getD off false = true then .whole else .untouched := by
  have bit : touched.getD off false = touched[off] := by simp [h]
  rw [touchOf, List.drop_eq_getElem_cons h, bit]
  cases touched[off] <;> rfl

theorem touchOf_two {touched : List Bool} {off : Nat} (h : off + 1 < touched.length) :
    touchOf touched off 2 =
      if touched.getD off false = true ∧ touched.getD (off + 1) false = true then .whole
      else if touched.getD off false = true ∨ touched.getD (off + 1) false = true then .torn else .untouched := by
  have low : touched.getD off false = touched[off] := by simp [Nat.lt_of_succ_lt h]
  have high : touched.getD (off + 1) false = touched[off + 1] := by simp [h]
  rw [touchOf, List.drop_eq_getElem_cons (Nat.lt_of_succ_lt h), List.drop_eq_getElem_cons h, low, high]
  cases touched[off] <;> cases touched[off + 1] <;> rfl

theorem touchOf_one_whole {touched : List Bool} {off : Nat} (h : off < touched.length) :
    touchOf touched off 1 = .whole ↔ touched.getD off false = true := by
  rw [touchOf_one h]
  cases touched.getD off false <;> decide

theorem touchOf_two_whole {touched : List Bool} {off : Nat} (h : off + 1 < touched.length) :
    touchOf touched off 2 = .whole ↔ touched.getD off false = true ∧ touched.getD (off + 1) false = true := by
  rw [touchOf_two h]
  cases touched.getD off false <;> cases touched.getD (off + 1) false <;> decide

theorem touchOf_two_torn {touched : List Bool} {off : Nat} (h : off + 1 < touched.length) :
    touchOf touched off 2 = .torn ↔
      (touched.getD off false = true ∨ touched.getD (off + 1) false = true) ∧
        ¬(touched.getD off false = true ∧ touched.getD (off + 1) false = true) := by
  rw [touchOf_two h]
  cases touched.getD off false <;> cases touched.getD (off + 1) false <;> decide

theorem ofNat_stagedValue_two (bytes : List Byte) (off : Nat) :
    BitVec.ofNat 16 (stagedValue bytes off 2) = bytes.getD (off + 1) 0 ++ bytes.getD off 0 := by
  refine BitVec.eq_of_toNat_eq ?_
  have low := (bytes.getD off 0).isLt
  have high := (bytes.getD (off + 1) 0).isLt
  rw [fromLe_take_two _ _ _ (.inr rfl), if_pos rfl, BitVec.toNat_append, BitVec.toNat_ofNat,
    ← Nat.shiftLeft_add_eq_or_of_lt low, Nat.shiftLeft_eq]
  omega

theorem stagedValue_one (bytes : List Byte) (off : Nat) : stagedValue bytes off 1 = (bytes.getD off 0).toNat := by
  rw [fromLe_take_two _ _ _ (.inl rfl), if_neg (by decide)]

/-- The common fields judged, by the touched bytes (R7, R9, R97, R166). -/
theorem judgeCommon_eq (most : Nat) (held permit : Bool) {st : Staging} (size : st.touched.length = 8) :
    let touched := fun i => st.touched.getD i false = true
    let value := fun i => (st.bytes.getD i 0).toNat
    let set := fun i => st.bytes.getD (i + 1) 0 ++ st.bytes.getD i 0
    let whole := fun i => touched i ∧ touched (i + 1)
    let torn := fun i => (touched i ∨ touched (i + 1)) ∧ ¬whole i
    let permitOk := value 6 = 1 ∨ (value 6 = 0 ∧ held = false)
    judgeCommon most held permit st =
      { enable := if whole 1 then some (set 1) else none
        ack := if whole 3 then some (set 3) else none
        supply := if touched 5 then some (min (value 5) most) else none
        permit := if touched 6 then some (if permitOk then decide (value 6 = 1) else permit) else none
        clearList := decide (touched 7 ∧ value 7 = 1)
        clamped := if touched 5 ∧ most < value 5 then 0x4 else 0
        torn := (if torn 1 then 0x1 else 0) ||| (if torn 3 then 0x2 else 0)
        refused := (if touched 6 ∧ ¬permitOk then 0x8 else 0) ||| (if touched 7 ∧ 1 < value 7 then 0x10 else 0) } := by
  intro touched value set whole torn permitOk
  unfold judgeCommon
  simp only [touchOf_two_whole (touched := st.touched) (off := 1) (by omega),
    touchOf_two_whole (touched := st.touched) (off := 3) (by omega),
    touchOf_two_torn (touched := st.touched) (off := 1) (by omega),
    touchOf_two_torn (touched := st.touched) (off := 3) (by omega),
    touchOf_one_whole (touched := st.touched) (off := 5) (by omega),
    touchOf_one_whole (touched := st.touched) (off := 6) (by omega),
    touchOf_one_whole (touched := st.touched) (off := 7) (by omega), ofNat_stagedValue_two, stagedValue_one]
  rfl

/-! ## What the take leaves standing -/

theorem Blocks.foldl_makePending_rest (ks : List Cause) (b : Blocks) :
    ∃ a : Alerts, ks.foldl Blocks.makePending b = { b with alerts := a } ∧ a.enabled = b.alerts.enabled := by
  induction ks generalizing b with
  | nil => exact ⟨b.alerts, rfl, rfl⟩
  | cons k rest ih =>
    obtain ⟨a, same, enabled⟩ := ih (b.makePending k)
    refine ⟨a, ?_, enabled.trans (b.makePending_otherSets k).2.1⟩
    rw [List.foldl_cons, same, b.makePending_alerts k]

/-- An acknowledgement changes the pending and the forced set and the fault list alone. -/
theorem Blocks.acknowledge_rest (b : Blocks) (causes : BitVec 16) :
    ∃ a : Alerts, b.acknowledge causes = { b with alerts := a } ∧ a.enabled = b.alerts.enabled := by
  unfold Blocks.acknowledge
  rw [Blocks.pendAgain_eq]
  exact Blocks.foldl_makePending_rest _ _

theorem Blocks.settle_supplyLimit (b : Blocks) : b.settle.load.supplyLimit = b.load.supplyLimit := by
  have same := congrArg (fun c : Blocks => c.load.supplyLimit) b.settle_apartFromHeat
  exact same

theorem Blocks.raiseTake_eq (b : Blocks) (r : TakeResult) :
    b.raiseTake r = if r.raises then b.withPending 0x4000 else b := by
  unfold Blocks.raiseTake
  rw [Blocks.raiseCause_take]

/-! ## The frame of a common SEQ -/

/-- A frame of a new common SEQ takes the common record (R6). -/
theorem State.passStore_commonSeq {s : State} {seq : Byte} (captures : s.captures = true) (access : s.path.access = none)
    (new : s.path.stagingCommon.lastSeq ≠ seq) :
    let addr := s.demandAddress 0x80
    let t := s.afterFrame (s.blocks.storeCode :: addressBytes addr ++ [seq]) .clean [] []
    let taken := s.takeCommonRecord seq
    s.passStore addr [seq] .clean =
      { t with
        blocks := taken.blocks
        ram := writeRam (startAddress addr).toNat seq s.ram
        service := taken.service
        path := { t.path with
          stagingCommon := taken.path.stagingCommon, resultCommon := taken.path.resultCommon } } := by
  intro addr t taken
  have place : pageOffset s.blocks.demandBase (startAddress addr) = some 0x80 := by
    rw [startAddress_demandAddress]
    exact pageOffset_base_add _ (by decide)
  have stored := State.storeByte_keepsSeq (s := s.inFrame (s.blocks.storeCode :: addressBytes addr ++ [seq])) captures
    place (r := .common) rfl seq
  rw [State.passStore_of_due access (addr := addr) (data := [seq]) (r := .common) (seq := seq) stored captures]
  · rfl
  · simp [State.dueTakes, State.inFrame, FrameState.keep, FrameState.kept, PathUnit.staging, new.symm]

/-! ## The fields in effect (R97, R153, R157) -/

theorem Blocks.setEnabled_ite (b : Blocks) (c : Prop) [Decidable c] (e : BitVec 16) :
    b.setEnabled (if c then some e else none) =
      { b with alerts := { b.alerts with enabled := if c then e else b.alerts.enabled } } := by
  by_cases h : c <;> simp [Blocks.setEnabled, h]

theorem Blocks.clearFaults_decide (b : Blocks) (c : Prop) [Decidable c] :
    b.clearFaults (decide c) = { b with alerts := { b.alerts with faults := if c then [] else b.alerts.faults } } := by
  by_cases h : c <;> simp [Blocks.clearFaults, h]

theorem Blocks.ackWhole_ite (b : Blocks) (c : Prop) [Decidable c] (causes : BitVec 16) :
    b.ackWhole (if c then some causes else none) = if c then b.acknowledge causes else b := by
  by_cases h : c <;> simp [Blocks.ackWhole, h]

theorem Blocks.setSupply_ite (b : Blocks) (c : Prop) [Decidable c] (n : Nat) :
    b.setSupply (if c then some n else none) =
      { b with load := { b.load with supplyLimit := if c then n else b.load.supplyLimit } } := by
  by_cases h : c <;> simp [Blocks.setSupply, Blocks.modLoad, h]

/-- Acknowledged or not, the alert controller's enabled set and everything outside it stand. -/
theorem Blocks.acknowledge_ite (b : Blocks) (c : Prop) [Decidable c] (causes : BitVec 16) :
    ∃ a : Alerts, (if c then b.acknowledge causes else b) = { b with alerts := a } ∧ a.enabled = b.alerts.enabled := by
  split
  · exact b.acknowledge_rest causes
  · exact ⟨b.alerts, rfl, rfl⟩

theorem TakeResult.raises_iff {r : TakeResult} (none : r.action = .none) :
    r.raises = true ↔ r.clamped ≠ 0 ∨ r.torn ≠ 0 ∨ r.refused ≠ 0 := by
  simp [TakeResult.raises, none, or_assoc]

theorem Blocks.raiseTake_rest (b : Blocks) (r : TakeResult) :
    (b.raiseTake r).load = b.load ∧ (b.raiseTake r).alerts.enabled = b.alerts.enabled := by
  rw [Blocks.raiseTake_eq]
  split <;> exact ⟨rfl, rfl⟩

/-! ## ALERT and the top cause (R155) -/

theorem Alerts.shown_ne_zero (a : Alerts) : a.shown ≠ 0 ↔ ∃ k : Nat, a.shown.getLsbD k = true := by
  constructor
  · intro ne
    by_contra none
    refine ne (BitVec.eq_of_getLsbD_eq fun i _ => ?_)
    simpa using not_exists.1 none i
  · rintro ⟨k, bit⟩ zero
    simp [zero] at bit

theorem State.alert_iff (s : State) :
    s.alert = true ↔ s.phase = .running ∧
      ((∃ k : Nat, s.blocks.alerts.shown.getLsbD k = true) ∨ s.blocks.optionState = .optionFault) := by
  rw [← Alerts.shown_ne_zero]
  simp [State.alert]

theorem Alerts.top_eq_none (a : Alerts) : a.top = none ↔ ∀ k, ¬a.shown.getLsbD k = true := by
  rw [Alerts.top, List.find?_eq_none]
  refine ⟨fun none k bit => ?_, fun none k _ => none k⟩
  exact none k (List.mem_range.2 (BitVec.lt_of_getLsbD bit)) bit

theorem Alerts.top_eq_some (a : Alerts) (k : Nat) :
    a.top = some k ↔ a.shown.getLsbD k = true ∧ ∀ i, i < k → ¬a.shown.getLsbD i = true := by
  rw [Alerts.top, List.find?_range_eq_some]
  constructor
  · rintro ⟨bit, -, below⟩
    exact ⟨bit, fun i lt => by simpa using below i lt⟩
  · rintro ⟨bit, below⟩
    exact ⟨bit, List.mem_range.2 (BitVec.lt_of_getLsbD bit), fun i lt => by simpa using below i lt⟩

/-- The take of the common record, by its judged fields and the blocks they come to. -/
theorem State.takeCommonRecord_of_judged {s : State} (seq : Byte) {j : CommonJudged} {b : Blocks}
    (judged : judgeCommon (rowSupplyMax s.blocks.working) s.blocks.held s.service.permit s.path.stagingCommon = j)
    (effects : (((s.blocks.setEnabled j.enable).clearFaults j.clearList).ackWhole j.ack).setSupply j.supply = b) :
    let r : TakeResult := { seq := seq, action := .none, clamped := j.clamped, torn := j.torn, refused := j.refused }
    let permit := j.permit.getD s.service.permit
    s.takeCommonRecord seq =
      { s with
        blocks := (b.raiseTake r).settle
        service := { s.service with permit := permit }
        path := { s.path with
          stagingCommon :=
            { bytes := [s.path.stagingCommon.bytes.getD 0 0] ++ toLe 2 b.alerts.enabled.toNat ++ [0, 0] ++
                [BitVec.ofNat 8 b.load.supplyLimit, if permit then 1 else 0, 0]
              touched := clearTouched s.path.stagingCommon.touched, lastSeq := seq }
          resultCommon := r } } := by
  intro r permit
  obtain ⟨loadStands, enabledStands⟩ := b.raiseTake_rest r
  have enabled : (b.raiseTake r).settle.alerts.enabled = b.alerts.enabled := by rw [Blocks.settle_alerts, enabledStands]
  have supply : (b.raiseTake r).settle.load.supplyLimit = b.load.supplyLimit := by
    rw [Blocks.settle_supplyLimit, loadStands]
  rw [← enabled, ← supply]
  subst judged effects
  rfl

/-- Settles O60: each field of the common record by its touched bytes, in the order of R153; ALERT and the top cause. -/
theorem commonTakeComesIntoEffect : Obligations.CommonTakeComesIntoEffect := by
  refine ⟨fun s seq run captures access _ size new => ?_, State.alert_iff, fun a => ⟨a.top_eq_none, a.top_eq_some⟩⟩
  intro st touched value set whole torn most permitOk r supply permit enabled b₁ b₂ b₃ addr t
  have powered : s.phase ≠ .off := by simp [run]
  have judged : judgeCommon (rowSupplyMax s.blocks.working) s.blocks.held s.service.permit st =
      { enable := if whole 1 then some (set 1) else none
        ack := if whole 3 then some (set 3) else none
        supply := if touched 5 then some (min (value 5) most) else none
        permit := if touched 6 then some (if permitOk then decide (value 6 = 1) else s.service.permit) else none
        clearList := decide (touched 7 ∧ value 7 = 1)
        clamped := r.clamped, torn := r.torn, refused := r.refused } :=
    judgeCommon_eq most s.blocks.held s.service.permit size
  obtain ⟨a, acked, sameEnabled⟩ := b₁.acknowledge_ite (whole 3) (set 3)
  change b₂ = { b₁ with alerts := a } at acked
  have supplyStands : b₂.load.supplyLimit = b₁.load.supplyLimit := by rw [acked]
  have enabledStands : b₃.alerts.enabled = enabled :=
    (congrArg (fun b : Blocks => b.alerts.enabled) acked).trans sameEnabled
  have effects : ((((s.blocks.setEnabled (if whole 1 then some (set 1) else none)).clearFaults
      (decide (touched 7 ∧ value 7 = 1))).ackWhole (if whole 3 then some (set 3) else none)).setSupply
        (if touched 5 then some (min (value 5) most) else none)) = b₃ := by
    rw [Blocks.setEnabled_ite, Blocks.clearFaults_decide, Blocks.ackWhole_ite, Blocks.setSupply_ite]
    change ({ b₂ with load := { b₂.load with supplyLimit := if touched 5 then _ else b₂.load.supplyLimit } } : Blocks) = b₃
    rw [supplyStands]
  have permits : (if touched 6 then some (if permitOk then decide (value 6 = 1) else s.service.permit) else none).getD
      s.service.permit = permit := by
    by_cases t6 : touched 6 <;> by_cases ok : permitOk <;> simp only [t6, ok, permit, if_true, if_false, and_self,
      and_true, and_false, Option.getD_some, Option.getD_none]
  have cleared : clearTouched st.touched = List.replicate 8 false := by
    rw [clearTouched, List.map_const', size]
  have taken := State.takeCommonRecord_of_judged seq judged effects
  dsimp only at taken
  rw [permits, enabledStands, show clearTouched s.path.stagingCommon.touched = _ from cleared] at taken
  have lists : s.blocks.SameLists b₃ := by
    have same : s.blocks.SameLists b₂ := by
      rw [acked]
      exact .refl _
    exact same.trans (b₂.modLoad_sameLists _ fun _ => ⟨rfl, rfl⟩)
  refine State.settlesAs_of_settle ?_ (show b₃.raiseTake r = _ from ?_) ?_
  · rw [exec_storeFrame powered, State.passStore_commonSeq captures access new, taken]
  · rw [Blocks.raiseTake_eq]
    simp only [TakeResult.raises_iff (r := r) rfl]
  · rw [Blocks.raiseTake_eq]
    split
    · exact lists
    · exact lists

end Sys2Proof.Machine
end

section
/-! SUPPORT. ALERT_ACK and FAULT_LIST_CLEAR: a frame of the field's bytes, then one of the common SEQ (R9, R153, R157). -/

namespace Sys2Proof.Machine

/-- A run of two field bytes is staged (R4). -/
theorem State.passStore_fieldPair {s : State} (access : s.path.access = none) (captures : s.captures = true) {off i : Nat}
    {r : RecordId} (inPage : off + 1 < 256) (low : demandByte off = .field r i)
    (high : demandByte (off + 1) = .field r (i + 1)) (x y : Byte) :
    let addr := s.demandAddress off
    let t := s.afterFrame (s.blocks.storeCode :: addressBytes addr ++ [x, y]) .clean [] []
    s.passStore addr [x, y] .clean =
      { t with
        ram := writeRamBytes (startAddress addr) [x, y] s.ram
        path := t.path.setStaging r (((s.path.staging r).touch i x).touch (i + 1) y) } := by
  intro addr t
  have first := pageOffset_base_add s.blocks.demandBase (Nat.lt_of_succ_lt inPage)
  have second := pageOffset_base_add s.blocks.demandBase inPage
  rw [BitVec.ofNat_add, ← BitVec.add_assoc] at second
  have at_ : startAddress addr = s.blocks.demandBase + BitVec.ofNat 17 off := startAddress_demandAddress s off
  let t₀ := s.inStore addr [x, y] .clean
  have stored : s.stored addr [x, y] .clean =
      { t₀ with
        ram := writeRamBytes (startAddress addr) [x, y] s.ram
        path := t₀.path.setStaging r (((s.path.staging r).touch i x).touch (i + 1) y) } := by
    unfold State.stored
    rw [at_, State.storeBytes, State.storeByte_field (s := t₀) captures first low, State.storeBytes, State.storeBytes]
    refine (State.storeByte_field ?captures ?second high y).trans ?_
    case captures => obtain ⟨_ | _⟩ | _ := r <;> exact captures
    case second => obtain ⟨_ | _⟩ | _ := r <;> exact second
    obtain ⟨_ | _⟩ | _ := r <;> rfl
  rw [State.passStore_of_none (State.calm_of_noAccess access), stored]
  · obtain ⟨_ | _⟩ | _ := r <;> rfl
  · rw [stored]
    exact State.dueTakes_of_empty ((PathUnit.setStaging_rest _ _ _).2.2.trans rfl)

theorem List.eq_of_length_eight {α : Type} {l : List α} (h : l.length = 8) :
    ∃ a b c d e f g i, l = [a, b, c, d, e, f, g, i] := by
  match l, h with
  | [a, b, c, d, e, f, g, i], _ => exact ⟨a, b, c, d, e, f, g, i, rfl⟩

/-- Stores go on being captured after a frame. -/
theorem State.captures_afterFrame (s : State) (captures : s.captures = true) (toRam : List Byte) :
    (s.afterFrame toRam .clean [] []).captures = true := by
  change (s.path.interpreting && !false && s.blocks.valid) = true
  simp only [State.captures, State.interprets, Bool.and_eq_true] at captures
  obtain ⟨⟨interpreting, -⟩, valid⟩ := captures
  rw [interpreting, valid]
  rfl

theorem toLe_two (set : BitVec 16) : ∃ low high : Byte, toLe 2 set.toNat = [low, high] ∧ high ++ low = set := by
  refine ⟨_, _, rfl, BitVec.eq_of_toNat_eq ?_⟩
  have size := set.isLt
  rw [BitVec.toNat_append, BitVec.toNat_ofNat, BitVec.toNat_ofNat,
    ← Nat.shiftLeft_add_eq_or_of_lt (Nat.mod_lt _ (by decide)), Nat.shiftLeft_eq]
  omega

/-- A command that ends in the frame of a new common SEQ takes the record as it then stands. -/
theorem State.settlesAs_of_commonSeq {s s₁ : State} {c : Instr} {seq : Byte} {j : CommonJudged} {b : Blocks}
    (runs : exec c s = .next (s₁.passStore (s₁.demandAddress 0x80) [seq] .clean)) (captures : s₁.captures = true)
    (access : s₁.path.access = none) (new : s₁.path.stagingCommon.lastSeq ≠ seq)
    (judged : judgeCommon (rowSupplyMax s₁.blocks.working) s₁.blocks.held s₁.service.permit s₁.path.stagingCommon = j)
    (effects : (((s₁.blocks.setEnabled j.enable).clearFaults j.clearList).ackWhole j.ack).setSupply j.supply = b)
    (lists : s.blocks.SameLists b) {enabled : BitVec 16} (sameEnabled : b.alerts.enabled = enabled) {supply : Nat}
    (sameSupply : b.load.supplyLimit = supply) {touched : List Bool}
    (cleared : clearTouched s₁.path.stagingCommon.touched = touched) {first : Byte}
    (sameFirst : s₁.path.stagingCommon.bytes.getD 0 0 = first) :
    let r : TakeResult := { seq := seq, action := .none, clamped := j.clamped, torn := j.torn, refused := j.refused }
    let permit := j.permit.getD s₁.service.permit
    let addr := s₁.demandAddress 0x80
    let t := s₁.afterFrame (s₁.blocks.storeCode :: addressBytes addr ++ [seq]) .clean [] []
    s.SettlesAs c
      (fun b => { t with
        blocks := b
        ram := writeRam (startAddress addr).toNat seq s₁.ram
        service := { s₁.service with permit := permit }
        path := { t.path with
          stagingCommon :=
            { bytes := [first] ++ toLe 2 enabled.toNat ++ [0, 0] ++
                [BitVec.ofNat 8 supply, if permit then 1 else 0, 0]
              touched := touched, lastSeq := seq }
          resultCommon := r } })
      (if r.raises then b.withPending 0x4000 else b) := by
  intro r permit addr t
  refine State.settlesAs_of_settle ?_ (b.raiseTake_eq r) ?_
  · rw [runs, State.passStore_commonSeq captures access new, State.takeCommonRecord_of_judged seq judged effects,
      sameEnabled, sameSupply, cleared, sameFirst]
  · rw [Blocks.raiseTake_eq]
    split
    · exact lists
    · exact lists

/-- Settles O30: the acknowledgement, and its two frames, of which the second takes the record. -/
theorem acknowledgementRemovesCauses : Obligations.AcknowledgementRemovesCauses := by
  unfold Obligations.AcknowledgementRemovesCauses
  constructor
  · intro b causes short a again pend entries
    have listed : b.entriesFrom a.nextSerial pend = entries := by
      have zero : a.nextSerial = a.nextSerial + BitVec.ofNat 8 0 := by simp
      rw [zero]
      refine b.entriesFrom_levelCauses (fun k mem => List.mem_of_mem_filter mem) 0 fun k level i => ?_
      obtain rfl | rfl | rfl : k = .highLimit .a ∨ k = .highLimit .b ∨ k = .sag := by simpa [levelCauses] using level
      all_goals rfl
    have length : entries.length = pend.length := by simp [entries]
    refine (b.acknowledge_eq causes short).trans ?_
    rw [length, ← listed]
    rfl
  · intro s causes seq ready a st addr staged t
    obtain ⟨run, captures, access, ⟨size, untouched⟩, new⟩ := ready
    have powered : s.phase ≠ .off := by simp [run]
    obtain ⟨low, high, bytes, set⟩ := toLe_two causes
    obtain ⟨b0, b1, b2, b3, b4, b5, b6, b7, all⟩ := List.eq_of_length_eight size
    have first := State.passStore_fieldPair access captures (off := 0x83) (r := .common) (by decide) rfl rfl low high
    have runs : exec (.alertAck causes seq) s =
        .next ((s.passStore (s.demandAddress 0x83) [low, high] .clean).passStore (s.demandAddress 0x80) [seq] .clean) := by
      change execAlertAck causes seq s = _
      rw [execAlertAck, State.whilePowered, if_neg powered, bytes]
    obtain ⟨acked, same, sameEnabled⟩ := s.blocks.acknowledge_rest causes
    have judged : judgeCommon (rowSupplyMax s.blocks.working) s.blocks.held s.service.permit
          ((s.path.stagingCommon.touch 3 low).touch 4 high) =
        { enable := none, ack := some causes, supply := none, permit := none, clearList := false, clamped := 0, torn := 0
          refused := 0 } := by
      rw [Staging.touch, Staging.touch, show s.path.stagingCommon.bytes = _ from all,
        show s.path.stagingCommon.touched = _ from untouched]
      refine (judgeCommon_eq _ _ _ rfl).trans ?_
      simp [← set]
    have firstByte : ((s.path.stagingCommon.touch 3 low).touch 4 high).bytes.getD 0 0 = st.bytes.getD 0 0 := by
      simp [Staging.touch, st]
    have cleared : clearTouched ((s.path.stagingCommon.touch 3 low).touch 4 high).touched = List.replicate 8 false := by
      rw [Staging.touch, Staging.touch, show s.path.stagingCommon.touched = _ from untouched]
      rfl
    rw [first] at runs
    have settles := State.settlesAs_of_commonSeq runs ?captures access new judged rfl
      (b := s.blocks.acknowledge causes) (enabled := s.blocks.alerts.enabled) (supply := s.blocks.load.supplyLimit)
      ?lists ?enabled ?supply cleared firstByte
    case lists => rw [same]; exact .refl _
    case enabled => rw [same]; exact sameEnabled
    case supply => rw [same]
    case captures => exact s.captures_afterFrame captures []
    rw [bytes]
    exact settles

/-- Settles O31: the one judged field is FAULT_LIST_CLEAR. -/
theorem faultListIsCleared : Obligations.FaultListIsCleared := by
  intro s v seq ready a st addr staged t
  obtain ⟨run, captures, access, ⟨size, untouched⟩, new⟩ := ready
  have powered : s.phase ≠ .off := by simp [run]
  obtain ⟨b0, b1, b2, b3, b4, b5, b6, b7, all⟩ := List.eq_of_length_eight size
  have place : pageOffset s.blocks.demandBase (startAddress (s.demandAddress 0x87)) = some 0x87 := by
    rw [startAddress_demandAddress]
    exact pageOffset_base_add _ (by decide)
  have first := State.passStore_field access captures place (r := .common) (i := 7) rfl v .clean
  have runs : exec (.faultListClear v seq) s =
      .next ((s.passStore (s.demandAddress 0x87) [v] .clean).passStore (s.demandAddress 0x80) [seq] .clean) := by
    change execFaultListClear v seq s = _
    rw [execFaultListClear, State.whilePowered, if_neg powered]
  have judged : judgeCommon (rowSupplyMax s.blocks.working) s.blocks.held s.service.permit
        (s.path.stagingCommon.touch 7 v) =
      { enable := none, ack := none, supply := none, permit := none, clearList := decide (v = 1), clamped := 0, torn := 0
        refused := if 1 < v.toNat then 0x10 else 0 } := by
    have isOne : v.toNat = 1 ↔ v = 1 := ⟨fun h => BitVec.eq_of_toNat_eq h, fun h => by rw [h]; rfl⟩
    rw [Staging.touch, show s.path.stagingCommon.bytes = _ from all, show s.path.stagingCommon.touched = _ from untouched]
    refine (judgeCommon_eq _ _ _ rfl).trans ?_
    simp [isOne]
  have firstByte : (s.path.stagingCommon.touch 7 v).bytes.getD 0 0 = st.bytes.getD 0 0 := by
    simp [Staging.touch, st]
  have cleared : clearTouched (s.path.stagingCommon.touch 7 v).touched = List.replicate 8 false := by
    rw [Staging.touch, show s.path.stagingCommon.touched = _ from untouched]
    rfl
  rw [first] at runs
  let cut : Blocks :=
    { s.blocks with alerts := { s.blocks.alerts with faults := if v = 1 then [] else s.blocks.alerts.faults } }
  have effects : (((s.blocks.setEnabled none).clearFaults (decide (v = 1))).ackWhole none).setSupply none = cut :=
    s.blocks.clearFaults_decide (v = 1)
  have settles := State.settlesAs_of_commonSeq runs (s.captures_afterFrame captures []) access new judged effects
    (.refl _) rfl rfl cleared firstByte
  have before : (if v = 1 then { s.blocks with alerts := { a with faults := [] } }
        else if v = 0 then s.blocks else s.blocks.withPending 0x4000) =
      if (TakeResult.mk seq .none 0 0 (if 1 < v.toNat then 0x10 else 0)).raises then cut.withPending 0x4000 else cut := by
    by_cases one : v = 1
    · simp [one, cut, a, TakeResult.raises]
    · by_cases zero : v = 0
      · simp [zero, cut, TakeResult.raises]
      · have above : 1 < v.toNat := by bv_omega
        have stands : cut = s.blocks := by simp only [cut, if_neg one]
        have raised : (TakeResult.mk seq .none 0 0 (if 1 < v.toNat then 0x10 else 0)).raises = true := by
          rw [if_pos above]
          rfl
        rw [if_neg one, if_neg zero, if_pos raised, stands]
  rw [before]
  exact settles

end Sys2Proof.Machine
end

section
/-! SUPPORT. The timed events of a pocket: the time limit, the extension, cool end, the crease guard, freshness (R31 to R38,
R45). -/

namespace Sys2Proof.Machine

/-! ## Events on the blocks -/

/-- An event whose condition holds, on the blocks alone. -/
theorem State.settlesTo_of_when {s : State} {c : Instr} {condition : Blocks → Bool} {f : Blocks → Blocks} {before : Blocks}
    (run : s.phase = .running)
    (answers : exec c s = .next (s.onBlocks fun b => b.when (condition b) fun b => (f b).settle))
    (holds : condition s.blocks = true) (same : f s.blocks = before) (lists : s.blocks.SameLists (f s.blocks)) :
    s.SettlesTo c before := by
  refine State.settlesAs_of_settle (changed := f s.blocks) ?_ same lists
  rw [answers, State.onBlocks_of_running s run, State.modBlocks, holds]
  rfl

theorem Blocks.raiseCause_of_edge {k : Cause} (edge : k.isFault = false) (b : Blocks) :
    b.raiseCause k = b.withPending (1#16 <<< k.number) := by
  unfold Blocks.raiseCause Blocks.makePending
  split
  case isTrue pending =>
    exact congrArg (fun x => { b with alerts := { b.alerts with pending := x } }) (or_bit_of_inSet pending).symm
  case isFalse => rw [edge]; rfl

theorem Blocks.raiseCause_done (b : Blocks) (p : Pocket) :
    b.raiseCause (.done p) = b.withPending (1#16 <<< (Cause.done p).number) :=
  Blocks.raiseCause_of_edge (by cases p <;> rfl) b

/-! ## Ends of the heating states (R31, R33) -/

theorem Blocks.judgeTimeLimit_of_drying {b : Blocks} {p : Pocket} (reached : (b.pocket p).limitReached = true)
    (drying : (b.pocket p).cycle.state = .drying) :
    b.judgeTimeLimit p =
      b.enterCooling p (some (if (b.pocket p).tuning.mode = 1 then .timedEnd else .limitReached)) := by
  unfold Blocks.judgeTimeLimit
  simp only [reached, drying, if_true]

theorem Blocks.judgeTimeLimit_of_extending {b : Blocks} {p : Pocket} (reached : (b.pocket p).limitReached = true)
    (extending : (b.pocket p).cycle.state = .extending) :
    b.judgeTimeLimit p = b.enterCooling p (some .confirmedDry) := by
  unfold Blocks.judgeTimeLimit
  simp only [reached, extending, if_true]

/-- Settles O32: the time limit in each heating state, and the extension's end. -/
theorem dryingEndsInCooling : Obligations.DryingEndsInCooling := by
  intro s p run one u cools
  have limit : u.tuning.timeLimit * 60 ≤ u.cycle.elapsed → u.limitReached = true := fun h => decide_eq_true h
  refine ⟨fun reached drying => ?_, fun reached extending => ?_, fun extending spent => ?_⟩
  · refine State.settlesTo_of_when run rfl ?_ ?_ (Blocks.judgeTimeLimit_sameLists _ p)
    · simp only [show (s.blocks.pocket p).limitReached = true from limit reached,
        show (s.blocks.pocket p).cycle.state = _ from drying]
      rfl
    · rw [Blocks.judgeTimeLimit_of_drying (limit reached) drying, Blocks.enterCooling_eq one]
      rfl
  · refine State.settlesTo_of_when run rfl ?_ ?_ (Blocks.judgeTimeLimit_sameLists _ p)
    · simp only [show (s.blocks.pocket p).limitReached = true from limit reached,
        show (s.blocks.pocket p).cycle.state = _ from extending]
      rfl
    · rw [Blocks.judgeTimeLimit_of_extending (limit reached) extending, Blocks.enterCooling_eq one]
      rfl
  · refine State.settlesTo_of_when run rfl ?_ (Blocks.enterCooling_eq one _) (Blocks.enterCooling_sameLists _ p _)
    simp only [show (s.blocks.pocket p).cycle.state = _ from extending,
      show (s.blocks.pocket p).cycle.extension = _ from spent]
    rfl

/-! ## Cool end (R36) -/

theorem Blocks.enterDone_eq (b : Blocks) (p : Pocket) :
    b.enterDone p =
      (b.modPocket p fun u => { u with cycle := { u.cycle with state := .done }, drum := u.drum.askedToStop }).withPending
        (1#16 <<< (Cause.done p).number) := by
  rw [Blocks.enterDone, Blocks.raiseCause_done]
  simp only [Blocks.stopDrum, Blocks.modDrum, Blocks.modCycle, Blocks.modPocket_modPocket, Drum.stopRequest_eq]

/-- CREASE_GUARD entered with no lockout condition holding (R37, R56). -/
theorem Blocks.enterCreaseGuard_eq {b : Blocks} {p : Pocket} (free : b.lockoutConditions p = []) :
    b.enterCreaseGuard p =
      b.modPocket p fun u =>
        { u with
          cycle := { u.cycle with state := .creaseGuard, creaseTimer := 0, creaseElapsed := 0 }
          drum := { u.drum.askedToStop with nextDir := .fwd } } := by
  have one : b.OneCause p := .inr (by simp [free])
  unfold Blocks.enterCreaseGuard Blocks.stopDrum Blocks.modDrum Blocks.modCycle
  rw [Blocks.modPocket_modPocket, Blocks.modPocket_modPocket, Blocks.entryLockout_modPocket one ⟨rfl, rfl⟩, free]
  simp only [Drum.stopRequest_eq]
  rfl

theorem Blocks.coolEnd_of_lockout {b : Blocks} {p : Pocket} (recorded : (b.pocket p).cycle.lockout.isSome = true) :
    b.coolEnd p = b.goFaulted p := if_pos recorded

theorem Blocks.coolEnd_of_aborted {b : Blocks} {p : Pocket} (none : (b.pocket p).cycle.lockout = none)
    (aborted : (b.pocket p).cycle.endFlag = some .aborted) : b.coolEnd p = b.enterIdle p := by
  simp [Blocks.coolEnd, none, aborted]

theorem Blocks.coolEnd_of_crease {b : Blocks} {p : Pocket} (none : (b.pocket p).cycle.lockout = none)
    (ended : (b.pocket p).cycle.endFlag ≠ some .aborted) (crease : (b.pocket p).tuning.crease = 1) :
    b.coolEnd p = b.enterCreaseGuard p := by
  simp [Blocks.coolEnd, none, ended, crease]

theorem Blocks.coolEnd_of_done {b : Blocks} {p : Pocket} (none : (b.pocket p).cycle.lockout = none)
    (ended : (b.pocket p).cycle.endFlag ≠ some .aborted) (crease : (b.pocket p).tuning.crease ≠ 1) :
    b.coolEnd p = b.enterDone p := by
  simp [Blocks.coolEnd, none, ended, crease]

/-! ## The crease guard (R37, R38) -/

/-- The burst request held, before the drum may spin up. -/
def Blocks.burstHeld (b : Blocks) (p : Pocket) : Blocks := b.modDrum p fun d => { d with request := .burst }

/-- A drum that RUN or BURST is held for spins up in its direction, standing still with its stop confirmed (R57). -/
theorem Blocks.trySpinUp_eq {b : Blocks} {p : Pocket} (asked : (b.pocket p).drum.request ≠ .stop) :
    b.trySpinUp p =
      if b.spinsUp (b.pocket p).drum then b.afterSpinUp p (b.pocket p).spinDirection else b := by
  have due : (b.pocket p).drum.state = .stopped ∧ (b.pocket p).drum.request ≠ .stop ∧ (b.pocket p).drum.confirmed = true ∧
      b.held = false ∧ b.optionState = .valid ↔ b.spinsUp (b.pocket p).drum = true := by
    simp [Blocks.spinsUp, Blocks.valid, and_assoc, asked]
  unfold Blocks.trySpinUp Blocks.afterSpinUp
  simp only [due]
  by_cases spins : b.spinsUp (b.pocket p).drum = true
  · rw [if_pos spins, if_pos spins]
    by_cases broken : b.beltBroken p = true
    · rw [if_pos broken, if_pos broken]
    · rw [if_neg broken, if_neg broken]
      cases p <;> rfl
  · rw [if_neg spins, if_neg spins]

/-- Settles O34: the burst with its spin-up, and the guard's end. -/
theorem creaseGuardBurstsAndEnds : Obligations.CreaseGuardBurstsAndEnds := by
  intro s p run guard u begun
  refine ⟨fun due before => ?_, fun ends => ?_⟩
  · refine State.settlesTo_of_when run rfl ?_ ?_ ?_
    · simp only [guard, show decide (300 ≤ (s.blocks.pocket p).cycle.creaseTimer) = true from decide_eq_true due,
        show decide ((s.blocks.pocket p).cycle.creaseElapsed < 7200) = true from decide_eq_true before]
      rfl
    · have held : ((s.blocks.modCycle p fun c => { c with creaseTimer := 0 }).modDrum p fun d =>
          { d with request := .burst }) = begun := by
        simp only [Blocks.modCycle, Blocks.modDrum, Blocks.modPocket_modPocket, begun]
      have asked : (begun.pocket p).drum.request ≠ .stop := by simp [begun]
      have spins : begun.spinsUp (begun.pocket p).drum = s.blocks.spinsUp u.drum := by cases p <;> rfl
      have direction : (begun.pocket p).spinDirection = u.drum.nextDir := by
        simp [begun, PocketUnit.spinDirection, u]
      rw [Blocks.burstRequest, held, Blocks.trySpinUp_eq asked, spins, direction]
    · exact (s.blocks.modCycle_sameLists p _).trans (Blocks.burstRequest_sameLists _ p)
  · refine State.settlesTo_of_when run rfl ?_ (s.blocks.enterDone_eq p) (s.blocks.enterDone_sameLists p)
    simp only [guard, show decide (7200 ≤ (s.blocks.pocket p).cycle.creaseElapsed) = true from decide_eq_true ends]
    rfl

/-! ## Freshness (R45) -/

theorem Blocks.raiseCause_pocket (b : Blocks) (k : Cause) (p : Pocket) : (b.raiseCause k).pocket p = b.pocket p :=
  b.makePending_pocket k p

/-- Settles O35: the answer of each state by R41's table. -/
theorem stalePocketLocksOut : Obligations.StalePocketLocksOut := by
  intro s p run last c running standing raised expires
  have cycle : (raised.pocket p).cycle = { c with freshness := 0 } := by
    rw [Blocks.raiseCause_pocket, Blocks.modCycle_pocket]
  have locks : c.state.countsFreshness = true → ∀ {before : Blocks},
      raised.modPocket p (PocketUnit.lockedOut .stale) = before → expires before := by
    intro counts before same
    refine State.settlesTo_of_when run rfl ?_ ((raised.lockoutFault_eq p .stale).trans same) ?_
    · simp only [last, show (s.blocks.pocket p).cycle.state.countsFreshness = true from counts]
      rfl
    · exact ((s.blocks.modCycle_sameLists p _).trans (Blocks.raiseCause_sameLists _ _)).trans
        (Blocks.lockoutFault_sameLists _ p .stale)
  refine ⟨fun recorded state => ?_, fun none state => ?_, fun none state => ?_, fun none state => ?_⟩
  · refine locks ?_ ?_
    · obtain (state | state | state) | state | state | state := state <;> rw [state] <;> rfl
    · refine (Blocks.modPocket_congr (g := fun u => u) ?_).trans (raised.modPocket_id p)
      simp [PocketUnit.lockedOut, cycle, recorded]
  · refine locks ?_ (Blocks.modPocket_congr ?_)
    · obtain state | state | state := state <;> rw [state] <;> rfl
    · obtain state | state | state := state <;> simp [PocketUnit.lockedOut, cycle, none, state]
  · refine locks ?_ (Blocks.modPocket_congr ?_)
    · rw [state]; rfl
    · simp [PocketUnit.lockedOut, cycle, none, state]
  · refine locks ?_ (Blocks.modPocket_congr ?_)
    · obtain state | state := state <;> rw [state] <;> rfl
    · obtain state | state := state <;> simp [PocketUnit.lockedOut, cycle, none, state]

end Sys2Proof.Machine
end

section
/-! SUPPORT. The end of an event stage by stage, and the timed events of the stages and the load share unit (R87 to R91, R98,
R101 to R105). -/

namespace Sys2Proof.Machine

/-! ## What one stage keeps -/

/-- A stage after part of an event's end: the instant of its dwell's end stands, and a stage past it does not dwell again
(R91). -/
def StageUnit.Follows (old new : StageUnit) : Prop :=
  new.ended = old.ended ∧ (old.ended = true → old.state ≠ .dwell → new.state ≠ .dwell)

theorem StageUnit.Follows.refl (u : StageUnit) : u.Follows u := ⟨rfl, fun _ => id⟩

theorem StageUnit.Follows.trans {u v w : StageUnit} (h : u.Follows v) (k : v.Follows w) : u.Follows w := by
  obtain ⟨ended, stays⟩ := h
  obtain ⟨ended', stays'⟩ := k
  exact ⟨ended'.trans ended, fun past apart => stays' (ended.trans past) (stays past apart)⟩

/-- A stage that has moved to a state other than DWELL. -/
theorem StageUnit.Follows.moved (u : StageUnit) {s : StageState} (apart : s ≠ .dwell) :
    u.Follows { u with state := s } := ⟨rfl, fun _ _ => apart⟩

theorem StageUnit.withdrawn_follows (u : StageUnit) : u.Follows u.withdrawn := by
  unfold StageUnit.withdrawn
  split
  case isTrue => exact .moved u (by simp)
  case isFalse open_ => exact ⟨rfl, fun past => absurd past open_⟩

namespace Blocks

variable (b : Blocks) (st u : Stage)

theorem reconcileStage_follows : (b.stage u).Follows ((b.reconcileStage st).stage u) := by
  by_cases same : u = st
  · subst same
    unfold reconcileStage
    split
    case h_1 =>
      split
      · rw [requestStage_at, if_pos rfl]
        exact .moved _ (by simp)
      · exact .refl _
    case h_4 => exact .refl _
    all_goals
      split
      · exact .refl _
      · rw [withdrawStage_at, if_pos rfl]
        exact (b.stage u).withdrawn_follows
  · rw [b.reconcileStage_at_of_ne same]
    exact .refl _

theorem reconcileStage_want : ((b.reconcileStage st).stage u).want = (b.stage u).want := by
  by_cases same : u = st
  · subst same
    unfold reconcileStage
    split <;> (try split) <;> simp [requestStage_at, withdrawStage_at]
  · rw [b.reconcileStage_at_of_ne same]

theorem reconcileStage_of_dwell (dwell : (b.stage u).state = .dwell) : (b.reconcileStage st).stage u = b.stage u := by
  by_cases same : u = st
  · subst same
    rw [reconcileStage, dwell]
  · exact b.reconcileStage_at_of_ne same

/-- The stages a revocation takes back. -/
def revoked : List Stage := (splitGrants b.cost b.effectiveBudget b.load.grants).2

theorem revoked_granted (h : u ∈ b.revoked) : u ∈ b.load.grants := by
  rw [← splitGrants_append b.cost b.load.grants b.effectiveBudget]
  exact List.mem_append_right _ h

theorem revoke_at : b.revoke.stage u = if u ∈ b.revoked then { b.stage u with state := .queued } else b.stage u :=
  (modLoad_stage _ u _).trans (queueStages_at b.revoked b u)

theorem revoke_follows : (b.stage u).Follows (b.revoke.stage u) := by
  rw [revoke_at]
  split
  · exact .moved _ (by simp)
  · exact .refl _

theorem revoke_want : (b.revoke.stage u).want = (b.stage u).want := by
  rw [revoke_at]
  split <;> rfl

/-- The head granted, if it may be. -/
theorem judgeHead_at :
    b.judgeHead.stage u = if b.headFits = some u then { b.stage u with state := .on } else b.stage u := by
  unfold judgeHead
  cases fits : b.headFits with
  | none => simp
  | some st =>
    refine (modLoad_stage _ u _).trans ((b.modStage_at st u _).trans ?_)
    by_cases same : u = st
    · simp [same]
    · simp [same, Ne.symm same]

theorem judgeHead_follows : (b.stage u).Follows (b.judgeHead.stage u) := by
  rw [judgeHead_at]
  split
  · exact .moved _ (by simp)
  · exact .refl _

theorem judgeHead_want : (b.judgeHead.stage u).want = (b.stage u).want := by
  rw [judgeHead_at]
  split <;> rfl

theorem headFits_queued (fits : b.headFits = some u) : u ∈ b.load.queue.map QueueEntry.stage := by
  unfold headFits at fits
  split at fits
  · rename_i e rest queue
    split at fits
    · rw [queue]
      simp [Option.some.inj fits]
    · simp at fits
  · simp at fits

/-! ## The end of an event -/

/-- An evaluation of the wants changes a stage's want at most. -/
theorem evaluateWants_stage (p : Pocket) : ∃ w, (b.evaluateWants p).stage u = { b.stage u with want := w } := by
  have unit : ∀ v : PocketUnit, ∃ w₁ w₂, v.evaluateWants.stage1 = { v.stage1 with want := w₁ } ∧
      v.evaluateWants.stage2 = { v.stage2 with want := w₂ } := by
    intro v
    unfold PocketUnit.evaluateWants
    split <;> exact ⟨_, _, rfl, rfl⟩
  by_cases own : stagePocket u = p
  · obtain ⟨w₁, w₂, first, second⟩ := unit (b.pocket p)
    subst own
    cases u
    · exact ⟨w₁, first⟩
    · exact ⟨w₂, second⟩
    · exact ⟨w₁, first⟩
    · exact ⟨w₂, second⟩
  · exact ⟨_, b.evaluateWants_stage_of_ne p u own⟩

/-- The pocket's permission and gate as they are judged, before its stages act. -/
def judged (p : Pocket) : Blocks :=
  (if (b.pocket p).permission = b.permissionHolds p then b else b.evaluateWants p).modPocket p fun u =>
    { u with permission := b.permissionHolds p, dryness := { u.dryness with gateOpen := u.gateHolds } }

theorem refreshPocket_eq (p : Pocket) :
    b.refreshPocket p = ((b.judged p).reconcileStage (stagesOf p).1).reconcileStage (stagesOf p).2 := rfl

theorem judged_stage (p : Pocket) :
    (b.judged p).stage u =
      (if (b.pocket p).permission = b.permissionHolds p then b else b.evaluateWants p).stage u := by
  unfold judged
  refine modPocket_stage _ p _ ?_ u
  exact fun _ => ⟨rfl, rfl⟩

theorem judged_stage_want (p : Pocket) : ∃ w, (b.judged p).stage u = { b.stage u with want := w } := by
  rw [judged_stage]
  split
  · exact ⟨_, rfl⟩
  · exact b.evaluateWants_stage u p

theorem judged_follows (p : Pocket) : (b.stage u).Follows ((b.judged p).stage u) := by
  obtain ⟨w, same⟩ := b.judged_stage_want u p
  rw [same]
  exact ⟨rfl, fun _ => id⟩

theorem refreshPocket_follows (p : Pocket) : (b.stage u).Follows ((b.refreshPocket p).stage u) :=
  ((b.judged_follows u p).trans (reconcileStage_follows _ _ u)).trans (reconcileStage_follows _ _ u)

theorem settle_follows : (b.stage u).Follows (b.settle.stage u) :=
  (((b.refreshPocket_follows u .a).trans (refreshPocket_follows _ u .b)).trans (revoke_follows _ u)).trans
    (judgeHead_follows _ u)

theorem reconcileStage_pocket_of_ne {q : Pocket} (other : q ≠ stagePocket st) :
    (b.reconcileStage st).pocket q = b.pocket q := by
  unfold reconcileStage
  have kept : ∀ f, (b.modStage st f).pocket q = b.pocket q := fun f => by
    cases st <;> cases q <;> first | rfl | exact absurd rfl other
  split <;> (try split) <;> simp [requestStage, withdrawStage, kept]

theorem refreshPocket_pocket_of_ne (p : Pocket) {q : Pocket} (other : q ≠ p) :
    (b.refreshPocket p).pocket q = b.pocket q := by
  have judged : (b.judged p).pocket q = b.pocket q := by
    unfold Blocks.judged
    rw [modPocket_pocket_of_ne _ other]
    split
    · rfl
    · exact modPocket_pocket_of_ne _ other _
  rw [refreshPocket_eq, reconcileStage_pocket_of_ne, reconcileStage_pocket_of_ne, judged]
  all_goals cases p <;> exact other

/-- The wants change by their evaluation alone (R87). -/
theorem refreshPocket_want (p : Pocket) :
    ((b.refreshPocket p).stage u).want = (b.stage u).want ∨
      ((b.refreshPocket p).stage u).want = ((b.evaluateWants p).stage u).want := by
  rw [refreshPocket_eq, reconcileStage_want, reconcileStage_want, judged_stage]
  split
  · exact .inl rfl
  · exact .inr rfl

theorem stage_congr {b c : Blocks} (same : c.pocket (stagePocket u) = b.pocket (stagePocket u)) :
    c.stage u = b.stage u := by
  cases u
  · exact congrArg PocketUnit.stage1 same
  · exact congrArg PocketUnit.stage2 same
  · exact congrArg PocketUnit.stage1 same
  · exact congrArg PocketUnit.stage2 same

theorem evaluateWants_congr {b c : Blocks} {p : Pocket} (same : c.pocket p = b.pocket p) :
    (c.evaluateWants p).pocket p = (b.evaluateWants p).pocket p := by
  rw [evaluateWants, evaluateWants, modPocket_pocket, modPocket_pocket, same]

theorem settle_want :
    (b.settle.stage u).want = (b.stage u).want ∨
      (b.settle.stage u).want = ((b.evaluateWants (stagePocket u)).stage u).want := by
  have afterwards : (b.settle.stage u).want = (((b.refreshPocket .a).refreshPocket .b).stage u).want := by
    rw [settle, judgeHead_want, revoke_want]
  rw [afterwards]
  cases own : stagePocket u with
  | a =>
    have second : ((b.refreshPocket .a).refreshPocket .b).stage u = (b.refreshPocket .a).stage u :=
      stage_congr u (refreshPocket_pocket_of_ne _ .b (by rw [own]; decide))
    rw [second]
    exact b.refreshPocket_want u .a
  | b =>
    have first : (b.refreshPocket .a).pocket .b = b.pocket .b := b.refreshPocket_pocket_of_ne .a (by decide)
    have same : (b.refreshPocket .a).stage u = b.stage u := stage_congr u (by rwa [own])
    have evaluated : ((b.refreshPocket .a).evaluateWants .b).stage u = (b.evaluateWants .b).stage u :=
      stage_congr u (by rw [own]; exact evaluateWants_congr first)
    rw [← same, ← evaluated]
    exact refreshPocket_want _ u .b

/-! ## Stages in DWELL -/

theorem dwell_unlisted {b : Blocks} {u : Stage} (lists : b.ListsAgree) (dwell : (b.stage u).state = .dwell) :
    u ∉ b.load.grants ∧ u ∉ b.load.queue.map QueueEntry.stage := by
  obtain ⟨-, -, listed⟩ := lists
  obtain ⟨on, queued⟩ := listed u
  exact ⟨fun mem => by simp [dwell] at on; exact on mem, fun mem => by
    have := queued.2 mem
    simp [dwell] at this⟩

theorem judged_listsAgree {b : Blocks} (lists : b.ListsAgree) (p : Pocket) : (b.judged p).ListsAgree := by
  have wanted : b.SameLists (if (b.pocket p).permission = b.permissionHolds p then b else b.evaluateWants p) := by
    split
    · exact .refl b
    · exact b.evaluateWants_sameLists p
  unfold judged
  refine (wanted.trans (modPocket_sameLists _ p _ ?_)).listsAgree lists
  exact fun _ => ⟨rfl, rfl⟩

theorem refreshPocket_listsAgree {b : Blocks} (lists : b.ListsAgree) (p : Pocket) : (b.refreshPocket p).ListsAgree :=
  (b.refreshPocket_spec p lists).1

theorem refreshPocket_of_dwell {b : Blocks} {u : Stage} (dwell : (b.stage u).state = .dwell) (p : Pocket) :
    ((b.refreshPocket p).stage u).state = .dwell ∧ ((b.refreshPocket p).stage u).dwell = (b.stage u).dwell := by
  obtain ⟨w, same⟩ := b.judged_stage_want u p
  have state : ((b.judged p).stage u).state = (b.stage u).state := by rw [same]
  have timer : ((b.judged p).stage u).dwell = (b.stage u).dwell := by rw [same]
  have first := reconcileStage_of_dwell (b.judged p) (stagesOf p).1 u (state.trans dwell)
  have second := reconcileStage_of_dwell ((b.judged p).reconcileStage (stagesOf p).1) (stagesOf p).2 u
    (by rw [first, state, dwell])
  rw [refreshPocket_eq, second, first]
  exact ⟨state.trans dwell, timer⟩

/-- A stage in DWELL stays there through the end of an event, its timer standing (R89). -/
theorem settle_of_dwell {b : Blocks} {u : Stage} (lists : b.ListsAgree) (dwell : (b.stage u).state = .dwell) :
    (b.settle.stage u).state = .dwell ∧ (b.settle.stage u).dwell = (b.stage u).dwell := by
  obtain ⟨stateA, timerA⟩ := refreshPocket_of_dwell dwell .a
  obtain ⟨stateB, timerB⟩ := refreshPocket_of_dwell stateA .b
  have listsB := refreshPocket_listsAgree (refreshPocket_listsAgree lists .a) .b
  have revoked : (((b.refreshPocket .a).refreshPocket .b).revoke).stage u =
      ((b.refreshPocket .a).refreshPocket .b).stage u := by
    rw [revoke_at, if_neg fun mem => (dwell_unlisted listsB stateB).1 (revoked_granted _ u mem)]
  have notHead : ((b.refreshPocket .a).refreshPocket .b).revoke.headFits ≠ some u := fun fits =>
    (dwell_unlisted (revoke_spec _ listsB).1 (by rw [revoked]; exact stateB)).2 (headFits_queued _ u fits)
  rw [settle, judgeHead_at, if_neg notHead, revoked]
  exact ⟨stateB, timerB.trans timerA⟩

end Blocks

end Sys2Proof.Machine
end

section
/-! SUPPORT. The timed events of the load share unit, what a stage and the end of an event do, the queue, the grants and the
budget (R82, R88 to R91, R96 to R105, R118). -/

namespace Sys2Proof.Machine

namespace Blocks

variable (b : Blocks) (st u : Stage)

/-! ## The pacing timer and the not-before times through the end of an event -/

theorem requestStage_load :
    (b.requestStage st).load = { b.load with queue := b.load.queue ++ [{ stage := st, notBefore := none }] } := by
  rw [requestStage, modLoad_load, modStage_load]

theorem withdrawStage_load :
    (b.withdrawStage st).load =
      { b.load.remove st with
        pacing := if (b.stage st).ended && (b.stage st).state == .on then 250 else b.load.pacing } := by
  rw [withdrawStage, modLoad_load, modStage_load]

/-- What a stage's acting can do to the load share unit. -/
theorem reconcileStage_load :
    (b.reconcileStage st).load = b.load ∨ (b.reconcileStage st).load = (b.requestStage st).load ∨
      (b.reconcileStage st).load = (b.withdrawStage st).load := by
  unfold reconcileStage
  split <;> (try split) <;> simp

theorem judged_load (p : Pocket) : (b.judged p).load = b.load := by
  unfold judged
  rw [modPocket_load]
  split
  · rfl
  · exact b.evaluateWants_load p

theorem revoke_load :
    b.revoke.load =
      { b.load with
        grants := (splitGrants b.cost b.effectiveBudget b.load.grants).1
        queue := b.revoked.map (fun st => { stage := st, notBefore := some 5000 }) ++ b.load.queue } := by
  change ((queueStages b.revoked b).modLoad _).load = _
  rw [modLoad_load, queueStages_load]
  rfl

theorem judgeHead_load :
    b.judgeHead.load = b.load ∨
      ∃ st, b.headFits = some st ∧
        b.judgeHead.load = { b.load with queue := b.load.queue.tail, grants := b.load.grants ++ [st], pacing := 0 } := by
  unfold judgeHead
  cases fits : b.headFits with
  | none => exact .inl rfl
  | some st => exact .inr ⟨st, rfl, by rw [modLoad_load, modStage_load]⟩

/-- A property of the load share unit that no stage's acting ends. -/
theorem refreshPocket_load_of {P : LoadShare → Prop} (acts : ∀ c : Blocks, ∀ st, P c.load → P (c.reconcileStage st).load)
    (p : Pocket) (start : P b.load) : P (b.refreshPocket p).load := by
  rw [refreshPocket_eq]
  exact acts _ _ (acts _ _ (by rwa [judged_load]))

/-- A property of the load share unit that every part of an event's end keeps. -/
theorem settle_load_of {P : LoadShare → Prop} (acts : ∀ c : Blocks, ∀ st, P c.load → P (c.reconcileStage st).load)
    (revokes : ∀ c : Blocks, P c.load → P c.revoke.load) (judges : ∀ c : Blocks, P c.load → P c.judgeHead.load)
    (start : P b.load) : P b.settle.load :=
  judges _ (revokes _ (refreshPocket_load_of _ acts .b (refreshPocket_load_of _ acts .a start)))

/-- A pacing timer at 250 ms is at the end of the event there, or at 0 after a grant (R101, R102). -/
theorem settle_pacing (full : b.load.pacing = 250) : b.settle.load.pacing = 250 ∨ b.settle.load.pacing = 0 := by
  refine b.settle_load_of (P := fun l => l.pacing = 250 ∨ l.pacing = 0) ?_ ?_ ?_ (.inl full)
  · intro c st h
    obtain same | asked | left := c.reconcileStage_load st
    · rwa [same]
    · rwa [asked, requestStage_load]
    · rw [left, withdrawStage_load]
      dsimp only
      split
      · exact .inl rfl
      · exact h
  · intro c h
    rwa [revoke_load]
  · intro c h
    obtain same | ⟨st, -, granted⟩ := c.judgeHead_load
    · rwa [same]
    · rw [granted]
      exact .inr rfl

/-- A stage that is not granted and whose queue entry has no not-before time gets none by the end of the event (R103). -/
def Unhindered (st : Stage) (l : LoadShare) : Prop := st ∉ l.grants ∧ ∀ e ∈ l.queue, e.stage = st → e.notBefore = none

theorem settle_unhindered (free : Unhindered st b.load) : ∀ e ∈ b.settle.load.queue, e.stage = st → e.notBefore = none := by
  have listsB : Unhindered st (((b.refreshPocket .a).refreshPocket .b).load) := by
    have acts : ∀ (c : Blocks) (v : Stage), Unhindered st c.load → Unhindered st (c.reconcileStage v).load := by
      intro c v ⟨notGranted, entries⟩
      obtain same | asked | left := c.reconcileStage_load v
      · rw [same]
        exact ⟨notGranted, entries⟩
      · rw [asked, requestStage_load]
        refine ⟨notGranted, fun e mem own => ?_⟩
        obtain mem | mem := List.mem_append.1 mem
        · exact entries e mem own
        · rw [List.mem_singleton.1 mem]
      · rw [left, withdrawStage_load]
        exact ⟨fun mem => notGranted (List.mem_of_mem_filter mem), fun e mem => entries e (List.mem_of_mem_filter mem)⟩
    exact refreshPocket_load_of _ acts .b (refreshPocket_load_of _ acts .a free)
  obtain ⟨notGranted, entries⟩ := listsB
  have revoked : ∀ e ∈ (((b.refreshPocket .a).refreshPocket .b).revoke).load.queue, e.stage = st →
      e.notBefore = none := by
    rw [revoke_load]
    intro e mem own
    obtain mem | mem := List.mem_append.1 mem
    · obtain ⟨v, taken, rfl⟩ := List.mem_map.1 mem
      exact absurd (revoked_granted _ v taken) (by rwa [show v = st from own])
    · exact entries e mem own
  intro e mem
  obtain same | ⟨v, -, granted⟩ := (((b.refreshPocket .a).refreshPocket .b).revoke).judgeHead_load
  · rw [settle, same] at mem
    exact revoked e mem
  · rw [settle, granted] at mem
    exact revoked e (List.mem_of_mem_tail mem)

end Blocks

/-! ## The timed events (R89, R98, R101 to R103) -/

/-- An event whose condition holds, on the blocks alone, as the change it makes before it ends. -/
theorem State.exec_of_when {s : State} {c : Instr} {condition : Blocks → Bool} {f : Blocks → Blocks}
    (run : s.phase = .running)
    (answers : exec c s = .next (s.onBlocks fun b => b.when (condition b) fun b => (f b).settle))
    (holds : condition s.blocks = true) : exec c s = .next { s with blocks := (f s.blocks).settle } := by
  rw [answers, State.onBlocks_of_running s run, State.modBlocks, holds]
  rfl

/-- Settles O45: what each timer's end leaves of stages, queue and grants, and what settling leaves of it. -/
theorem loadTimersEnd : Obligations.LoadTimersEnd := by
  intro s run lists
  refine ⟨fun st dwell last => ?_, fun p last => ?_, fun last => ?_, fun st last => ?_⟩
  · let off : StageUnit → StageUnit := fun g => { g with state := .off, dwell := 5000, ended := true }
    have unlisted := Blocks.dwell_unlisted lists dwell
    have stillAgree : (s.blocks.modStage st off).ListsAgree := by
      obtain ⟨grants, queue, listed⟩ := lists
      refine ⟨by rwa [Blocks.modStage_load], by rwa [Blocks.modStage_load], fun u => ?_⟩
      rw [Blocks.modStage_load, Blocks.modStage_at]
      by_cases same : u = st
      · subst same
        simpa [off] using unlisted
      · simpa [same] using listed u
    have answers := State.exec_of_when (c := .dwellEnd st) (f := fun b => b.modStage st off) run rfl
      (by simp [dwell, last])
    refine ⟨⟨answers, fun _ => Blocks.settle_settled _ stillAgree⟩, fun t next => ?_⟩
    obtain rfl := (Host.Outcome.next.inj (answers.symm.trans next))
    have ended := (s.blocks.modStage st off).settle_follows st
    rw [Blocks.modStage_stage] at ended
    obtain ⟨same, apart⟩ := ended
    have notDwell := apart rfl (by simp [off])
    obtain ⟨-, -, stands, -⟩ := Blocks.settle_settled _ stillAgree
    obtain ⟨listed, isOff⟩ := stands st
    refine ⟨notDwell, same, isOff, fun uncalled => ?_⟩
    change (((s.blocks.modStage st off).settle).stage st).state = .off
    cases state : (((s.blocks.modStage st off).settle).stage st).state
    case off => rfl
    case dwell => exact absurd state notDwell
    case queued => exact absurd (listed (.inr state)) uncalled
    case on => exact absurd (listed (.inl state)) uncalled
  · refine State.settlesTo_of_when run rfl (by simp [last]) rfl (Blocks.modLoad_sameLists _ _ fun l => ?_)
    cases p <;> exact ⟨rfl, rfl⟩
  · have answers := State.exec_of_when (c := .pacingTimerExpiry) (f := fun b => b.modLoad fun l => { l with pacing := 250 })
      run rfl (by simp [last])
    refine ⟨State.settlesTo_of_when run rfl (by simp [last]) rfl (Blocks.modLoad_sameLists _ _ fun _ => ⟨rfl, rfl⟩),
      fun t next => ?_⟩
    obtain rfl := (Host.Outcome.next.inj (answers.symm.trans next))
    exact Blocks.settle_pacing _ rfl
  · have due : (s.blocks.load.queue.any fun e => e.stage == st && e.notBefore == some 1) = true :=
      List.any_eq_true.2 ⟨_, last, by simp⟩
    have answers := State.exec_of_when (c := .notBeforeExpiry st)
      (f := fun b => b.modLoad fun l => { l with queue := clearNotBefore st l.queue }) run rfl due
    have stages : (clearNotBefore st s.blocks.load.queue).map QueueEntry.stage =
        s.blocks.load.queue.map QueueEntry.stage := by
      unfold clearNotBefore
      rw [List.map_map]
      refine List.map_congr_left fun e _ => ?_
      simp only [Function.comp_apply]
      split <;> rfl
    obtain ⟨grants, queue, listed⟩ := lists
    have stillAgree : (s.blocks.modLoad fun l => { l with queue := clearNotBefore st l.queue }).ListsAgree :=
      ⟨grants, by rw [Blocks.modLoad_load]; exact stages ▸ queue, fun u => by
        rw [Blocks.modLoad_load, Blocks.modLoad_stage]
        simpa only [stages] using listed u⟩
    refine ⟨⟨answers, fun _ => Blocks.settle_settled _ stillAgree⟩, fun t next => ?_⟩
    obtain rfl := (Host.Outcome.next.inj (answers.symm.trans next))
    refine Blocks.settle_unhindered _ st ⟨fun granted => ?_, fun e mem own => ?_⟩
    · obtain ⟨on, queued⟩ := listed st
      have isOn := on.2 granted
      have isQueued := queued.2 (List.mem_map_of_mem last)
      simp [isOn] at isQueued
    · obtain ⟨e', -, rfl⟩ := List.mem_map.1 mem
      by_cases same : e'.stage = st
      · simp [same]
      · simp [same] at own

/-! ## What a stage and the end of an event do (R82, R88, R89, R118) -/

theorem Blocks.called_iff (b : Blocks) (st : Stage) :
    b.called st = true ↔ (b.stage st).want = true ∧ (b.pocket (stagePocket st)).permission = true := by
  simp [Blocks.called]

theorem Blocks.reconcileStage_of_stands {b : Blocks} {st : Stage}
    (stands : ((b.stage st).state = .off ∧ ¬b.called st = true) ∨
      (((b.stage st).state = .queued ∨ (b.stage st).state = .on) ∧ b.called st = true) ∨ (b.stage st).state = .dwell) :
    b.reconcileStage st = b := by
  unfold Blocks.reconcileStage
  obtain ⟨off, uncalled⟩ | ⟨queued | on, called⟩ | dwell := stands
  · simp [off, uncalled]
  · simp [queued, called]
  · simp [on, called]
  · simp [dwell]

theorem Blocks.reconcileStage_of_listed {b : Blocks} {st : Stage}
    (listed : (b.stage st).state = .queued ∨ (b.stage st).state = .on) (uncalled : ¬b.called st = true) :
    b.reconcileStage st = b.withdrawStage st := by
  unfold Blocks.reconcileStage
  obtain queued | on := listed
  · simp [queued, uncalled]
  · simp [on, uncalled]

/-- The seven terms of permission (R82), each as its input, channel or context has it. -/
theorem Blocks.permissionHolds_iff (b : Blocks) (p : Pocket) :
    let u := b.pocket p
    let level := fun f => (carrier b.working f).map fun i => (b.input i).level
    b.permissionHolds p = true ↔
      ((u.cycle.state = .drying ∨ u.cycle.state = .extending) ∧ u.drum.state = .run) ∧ u.cycle.lockout = none ∧
        u.exhaust.fault = none ∧ level (.hilimit p) = some .active ∧
          (level (.airflow p) = none ∨ level (.airflow p) = some .active) ∧ b.held = false := by
  intro u level
  have airflow : b.airflowHolds p = true ↔ level (.airflow p) = none ∨ level (.airflow p) = some .active := by
    unfold Blocks.airflowHolds
    change (match level (.airflow p) with | none => true | some l => l == .active) = true ↔ _
    cases level (.airflow p) <;> simp
  have cutout : b.cutoutOpen p = false ↔ level (.hilimit p) = some .active := by
    change (level (.hilimit p) != some .active) = false ↔ _
    simp
  simp [Blocks.permissionHolds, Blocks.exhaustFaulted, CycleState.heating_iff, airflow, cutout, and_assoc, u]

theorem Blocks.modStage_congr {b : Blocks} {st : Stage} {f g : StageUnit → StageUnit} (h : f (b.stage st) = g (b.stage st)) :
    b.modStage st f = b.modStage st g := by
  cases st
  · exact congrArg (fun x => { b with pocketA := { b.pocketA with stage1 := x } }) h
  · exact congrArg (fun x => { b with pocketA := { b.pocketA with stage2 := x } }) h
  · exact congrArg (fun x => { b with pocketB := { b.pocketB with stage1 := x } }) h
  · exact congrArg (fun x => { b with pocketB := { b.pocketB with stage2 := x } }) h

/-- Settles O46: reconciling by the stage's state, and settling term by term. -/
theorem stagesFollowWantAndPermission : Obligations.StagesFollowWantAndPermission := by
  unfold Obligations.StagesFollowWantAndPermission
  refine ⟨?_, fun b => ⟨rfl, fun p => ⟨b.permissionHolds_iff p, ?_⟩⟩⟩
  · intro b st u called listed
    have calledIff : b.called st = true ↔ called := b.called_iff st
    have without : ∀ (x : Stage), (fun s : Stage => s != x) = fun s => decide (s ≠ x) := fun x => by
      funext s
      cases s <;> cases x <;> rfl
    have remove : b.load.remove st =
        { b.load with
          queue := b.load.queue.filter (fun e => e.stage ≠ st), grants := b.load.grants.filter (fun g => g ≠ st) } := by
      unfold LoadShare.remove
      rw [← without]
      congr 1
      exact List.filter_congr fun e _ => congrFun (without st) e.stage
    refine ⟨fun off isCalled => ?_, fun isListed uncalled notEnded => ?_, fun isListed uncalled ended => ?_,
      fun stands => ?_, fun dwell lists => Blocks.settle_of_dwell lists dwell⟩
    · have state : (b.stage st).state = .off := off
      unfold Blocks.reconcileStage
      simp only [state, calledIff.2 isCalled, if_true]
      rw [Blocks.requestStage, Blocks.modLoad, Blocks.modStage_load]
    · have withdrawn : (b.stage st).withdrawn = { b.stage st with state := .dwell, dwell := 0 } := by
        rw [StageUnit.withdrawn, if_neg (by rw [show (b.stage st).ended = false from notEnded]; simp)]
      rw [Blocks.reconcileStage_of_listed isListed (mt calledIff.1 uncalled), Blocks.withdrawStage,
        show (b.stage st).ended = false from notEnded,
        Blocks.modStage_congr (g := fun u => { u with state := .dwell, dwell := 0 }) withdrawn, Blocks.modLoad,
        Blocks.modStage_load, remove]
      rfl
    · have withdrawn : (b.stage st).withdrawn = { b.stage st with state := .off } := by
        rw [StageUnit.withdrawn, if_pos (show (b.stage st).ended = true from ended)]
      have isOn : ((b.stage st).state == .on) = decide (u.state = .on) := by cases (b.stage st).state <;> rfl
      rw [Blocks.reconcileStage_of_listed isListed (mt calledIff.1 uncalled), Blocks.withdrawStage,
        show (b.stage st).ended = true from ended,
        Blocks.modStage_congr (g := fun u => { u with state := .off }) withdrawn, Blocks.modLoad,
        Blocks.modStage_load, remove, Bool.true_and, isOn]
      simp only [decide_eq_true_eq]
    · refine Blocks.reconcileStage_of_stands ?_
      rwa [calledIff]
  · simp [PocketUnit.gateHolds, CycleState.heating_iff]

/-! ## The queue, the grants and the budget (R96 to R105) -/

theorem Blocks.judgeHead_of_fits {b : Blocks} {st : Stage} (fits : b.headFits = some st) :
    b.judgeHead = (b.modStage st fun u => { u with state := .on }).modLoad fun l =>
      { l with queue := l.queue.tail, grants := l.grants ++ [st], pacing := 0 } := by
  rw [Blocks.judgeHead, fits]

theorem Blocks.judgeHead_of_none {b : Blocks} (none : b.headFits = none) : b.judgeHead = b := by
  rw [Blocks.judgeHead, none]

/-- The grants taken back would not have fitted, from the first on (R105). -/
theorem splitGrants_least (cost : Stage → Nat) (gs : List Stage) (budget : Nat) {st : Stage} {more : List Stage}
    (taken : (splitGrants cost budget gs).2 = st :: more) :
    budget < (((splitGrants cost budget gs).1 ++ [st]).map cost).sum := by
  induction gs generalizing budget with
  | nil => simp [splitGrants] at taken
  | cons g rest ih =>
    unfold splitGrants at taken ⊢
    split
    case isTrue fits =>
      rw [if_pos fits] at taken
      have := ih (budget - cost g) taken
      simp only [List.cons_append, List.map_cons, List.sum_cons]
      omega
    case isFalse tooMuch =>
      rw [if_neg tooMuch] at taken
      obtain rfl := (List.cons.inj taken).1
      simpa using tooMuch

theorem clampNat_one_fifteen (v : Nat) : clampNat 1 15 v = max 1 (min 15 v) := clampNat_eq (by decide) v

/-- Settles O47: the head that fits, the least tail of grants that must go, and the terms of the budget. -/
theorem queueAndGrantsFollowTheBudget : Obligations.QueueAndGrantsFollowTheBudget := by
  unfold Obligations.QueueAndGrantsFollowTheBudget
  refine ⟨fun b e rest queue => ?_, fun b => ⟨(splitGrants b.cost b.effectiveBudget b.load.grants).1, b.revoked,
    (splitGrants_append ..).symm, b.revoke_load, splitGrants_fits .., fun _ _ taken => splitGrants_least _ _ _ taken, b.revoke_at,
    b.revoke_apartFromHeat, ?_⟩⟩
  · have fits : b.headFits =
        if e.notBefore = none ∧ b.load.pacing = 250 ∧ b.cost e.stage + b.grantedSum ≤ b.effectiveBudget then some e.stage
        else none := by
      rw [Blocks.headFits, queue, Nat.add_comm]
    split
    case isTrue may =>
      rw [if_pos may] at fits
      refine ⟨?_, ?_, fun st other => ?_, b.judgeHead_apartFromHeat⟩
      · rw [Blocks.judgeHead_of_fits fits, Blocks.modLoad_load, Blocks.modStage_load, queue]
        rfl
      · rw [Blocks.judgeHead_at, if_pos fits]
      · rw [Blocks.judgeHead_at, if_neg]
        rw [fits]
        exact fun same => other (Option.some.inj same).symm
    case isFalse mayNot =>
      rw [if_neg mayNot] at fits
      exact Blocks.judgeHead_of_none fits
  · intro byte within running
    have cost : ∀ i, clampNat 1 15 (rowByte b.working i) = within i := fun i => clampNat_one_fifteen _
    refine ⟨⟨cost _, cost _, cost _, cost _⟩, fun _ => rfl, rfl, rfl, fun off => if_pos ?_, fun normal free valid => ?_⟩
    · obtain sagged | lost | held | fault := off
      · exact .inl (by simp [sagged])
      · exact .inl (by simp [lost])
      · exact .inr (.inl held)
      · exact .inr (.inr fault)
    · have allowances : b.allowances = running := by
        unfold Blocks.allowances
        simp only [running]
        cases b.load.allowanceA <;> cases b.load.allowanceB <;> rfl
      have budget : b.effectiveBudget = b.baseBudget - b.startCost * b.allowances :=
        if_neg (by simp [normal, free, valid])
      have start : b.startCost = min 15 (byte 0x0D) := rfl
      rw [budget, allowances, start]
      omega

end Sys2Proof.Machine
end

section
/-! SUPPORT. The temperature channels: good and bad samples, the filtered update of an exhaust channel, the wants by their bands
(R35, R75 to R80, R86, R87). -/

namespace Sys2Proof.Machine

/-! ## Changes of one channel -/

theorem Blocks.modChannel_congr {b : Blocks} {ch : Sensor} {f g : Channel → Channel}
    (h : f (b.channel ch) = g (b.channel ch)) : b.modChannel ch f = b.modChannel ch g := by
  cases ch with
  | exhaust p =>
    unfold Blocks.modChannel
    refine Blocks.modPocket_congr ?_
    exact congrArg (fun c => { b.pocket p with exhaust := c }) h
  | inlet => exact congrArg (fun c => { b with inlet := c }) h

theorem Blocks.modChannel_modChannel (b : Blocks) (ch : Sensor) (f g : Channel → Channel) :
    (b.modChannel ch f).modChannel ch g = b.modChannel ch fun c => g (f c) := by
  cases ch with
  | exhaust p =>
    unfold Blocks.modChannel
    exact b.modPocket_modPocket p _ _
  | inlet => rfl

/-- A cause raised before or after a change of a pocket that keeps what its fault list entry shows. -/
theorem Blocks.raiseCause_modPocket (b : Blocks) (k : Cause) (p : Pocket) {f : PocketUnit → PocketUnit}
    (keeps : ∀ u, (f u).cycle.state = u.cycle.state ∧ (f u).cycle.elapsed = u.cycle.elapsed) :
    (b.modPocket p f).raiseCause k = (b.raiseCause k).modPocket p f := by
  have cycle : ∀ q, ((b.modPocket p f).pocket q).cycle.state = (b.pocket q).cycle.state ∧
      ((b.modPocket p f).pocket q).cycle.elapsed = (b.pocket q).cycle.elapsed := fun q => by
    by_cases same : q = p
    · subst same
      rw [Blocks.modPocket_pocket]
      exact keeps _
    · rw [Blocks.modPocket_pocket_of_ne _ same]
      exact ⟨rfl, rfl⟩
  have entry : (b.modPocket p f).entryFor k = b.entryFor k := by simp [Blocks.entryFor, cycle]
  unfold Blocks.raiseCause Blocks.makePending
  rw [entry, Blocks.modPocket_alerts]
  split
  · rfl
  · split <;> cases p <;> rfl

/-! ## The events of a sample (R75) -/

theorem goodRaw_iff {raw : Nat} : goodRaw raw = true ↔ 8 ≤ raw ∧ raw ≤ 1015 := decide_eq_true_iff

/-- A sample's event, by what the channel's sample does to the blocks. -/
theorem State.settlesAs_sample {s : State} {ch : Sensor} {raw : BitVec 10} (run : s.phase = .running) {before : Blocks}
    (same : s.blocks.takeSample ch raw.toNat = before) :
    s.SettlesAs (.temperatureSample ch raw) (fun b => { s with blocks := b, pins := s.pins.setThermistor ch raw })
      before := by
  subst same
  refine ⟨?_, fun lists => Blocks.settle_settled _ ((s.blocks.takeSample_keeps (P := fun _ => False) ch _).lists lists)⟩
  change execTemperatureSample ch raw s = _
  rw [execTemperatureSample, State.whileRunning, if_pos run]
  rfl

/-- The channel after a good sample, OK and with its streaks at these (R75 to R77). -/
def Channel.sampled (c : Channel) (row : List Byte) (raw good : Nat) : Channel :=
  let t := translate row raw
  let ring := if c.ring = [] then [t, t, t, t] else c.ring.drop 1 ++ [t]
  { c with
    fault := none, lastRaw := raw, bad := 0, good := good, ring := ring, translated := some t
    filtered := some (ring.sum.fdiv 4) }

/-- A filtered update handed to its owner, the overheat condition having been as in the blocks before (R77). -/
def Blocks.handUpdate (b : Blocks) (ch : Sensor) (before : Blocks) : Blocks :=
  match ch with
  | .exhaust p => b.exhaustUpdated p (before.overheat p)
  | .inlet => b

theorem enterRing_eq (ring : List Int) (t : Int) :
    enterRing ring t = if ring = [] then [t, t, t, t] else ring.drop 1 ++ [t] := by
  cases ring <;> rfl

theorem Blocks.filteredUpdate_eq (b : Blocks) (ch : Sensor) (t : Int) (f g : Channel → Channel)
    (keeps : (g (b.channel ch)).filtered = (b.channel ch).filtered) :
    (b.modChannel ch g).filteredUpdate ch t f = (b.modChannel ch fun c => f ((g c).update t)).handUpdate ch b := by
  unfold Blocks.filteredUpdate Blocks.handUpdate
  dsimp only
  rw [Blocks.modChannel_modChannel]
  cases ch with
  | inlet => rfl
  | exhaust p =>
    have overheat : (b.modChannel (.exhaust p) g).overheat p = b.overheat p := by
      have same : ((b.modChannel (.exhaust p) g).pocket p).exhaust.filtered = (b.pocket p).exhaust.filtered := by
        rw [Blocks.modChannel, Blocks.modPocket_pocket]
        exact keeps
      unfold Blocks.overheat
      rw [same]
      cases p <;> rfl
    dsimp only
    rw [overheat]

section

variable {b : Blocks} {ch : Sensor} {raw : Nat}

theorem Blocks.takeSample_of_ok (ok : (b.channel ch).fault = none) (good : goodRaw raw = true) :
    b.takeSample ch raw =
      (b.modChannel ch fun c => c.sampled b.working raw c.good).handUpdate ch b := by
  unfold Blocks.takeSample
  simp only [ok, good, if_true]
  rw [Blocks.filteredUpdate_eq b ch _ _ _ rfl]
  congr 1
  refine Blocks.modChannel_congr ?_
  simp [Channel.update, Channel.sampled, enterRing_eq, filterRing, ok]

theorem Blocks.takeSample_of_recovery (faulted : (b.channel ch).fault.isSome = true) (good : goodRaw raw = true)
    (tenth : 9 ≤ (b.channel ch).good) :
    b.takeSample ch raw = (b.modChannel ch fun c => c.sampled b.working raw 0).handUpdate ch b := by
  obtain ⟨side, faulted⟩ := Option.isSome_iff_exists.1 faulted
  unfold Blocks.takeSample
  simp only [faulted, good, if_true, show 10 ≤ (b.channel ch).good + 1 by omega]
  rw [Blocks.filteredUpdate_eq b ch _ _ _ rfl]
  congr 1
  refine Blocks.modChannel_congr ?_
  simp [Channel.update, Channel.sampled, enterRing_eq, filterRing]

theorem Blocks.takeSample_of_counted (faulted : (b.channel ch).fault.isSome = true) (good : goodRaw raw = true)
    (short : (b.channel ch).good < 9) :
    b.takeSample ch raw = b.modChannel ch fun c => { c with lastRaw := raw, bad := 0, good := c.good + 1 } := by
  obtain ⟨side, faulted⟩ := Option.isSome_iff_exists.1 faulted
  unfold Blocks.takeSample
  simp only [faulted, good, if_true, show ¬10 ≤ (b.channel ch).good + 1 by omega, if_false]
  rw [Blocks.modChannel_modChannel]

theorem Blocks.takeSample_of_still_bad (faulted : (b.channel ch).fault.isSome = true) (bad : goodRaw raw = false) :
    b.takeSample ch raw =
      b.modChannel ch fun c => { c with lastRaw := raw, good := 0, fault := some (sideOf raw) } := by
  obtain ⟨side, faulted⟩ := Option.isSome_iff_exists.1 faulted
  unfold Blocks.takeSample
  simp only [faulted, bad, Bool.false_eq_true, if_false]
  rw [Blocks.modChannel_modChannel]

theorem Blocks.takeSample_of_bad (ok : (b.channel ch).fault = none) (bad : goodRaw raw = false)
    (few : (b.channel ch).bad < 2) :
    b.takeSample ch raw = b.modChannel ch fun c => { c with lastRaw := raw, bad := c.bad + 1 } := by
  unfold Blocks.takeSample
  simp only [ok, bad, Bool.false_eq_true, if_false, show ¬3 ≤ (b.channel ch).bad + 1 by omega]
  rw [Blocks.modChannel_modChannel]

/-- The channel faulted by a third bad sample (R78). -/
def Channel.faulted (c : Channel) (raw : Nat) : Channel :=
  { c with lastRaw := raw, fault := some (sideOf raw), bad := 3, good := 0, ring := [] }

theorem Blocks.takeSample_of_third (ok : (b.channel ch).fault = none) (bad : goodRaw raw = false)
    (third : 2 ≤ (b.channel ch).bad) :
    b.takeSample ch raw =
      match ch with
      | .exhaust p =>
        ((b.modChannel ch fun c => c.faulted raw).raiseCause (.sensor p)).lockoutFault p .sensor
      | .inlet => b.modChannel ch fun c => c.faulted raw := by
  unfold Blocks.takeSample
  simp only [ok, bad, Bool.false_eq_true, if_false, show 3 ≤ (b.channel ch).bad + 1 by omega, if_true]
  unfold Blocks.faultChannel
  rw [Blocks.modChannel_modChannel]
  cases ch <;> rfl

end

/-! ## The filtered update of an exhaust channel (R35, R77, R80, R87) -/

/-- The blocks after the overheat of an exhaust update has been answered, if one newly holds (R80). -/
def Blocks.overheated (b : Blocks) (p : Pocket) (before : Blocks) : Blocks :=
  if before.overheat p = false ∧ b.overheat p = true then
    (b.raiseCause (.overheat p)).modPocket p (PocketUnit.lockedOut .overheat)
  else b

theorem PocketUnit.lockedOut_exhaust (k : Lockout) (u : PocketUnit) :
    (u.lockedOut k).exhaust = u.exhaust ∧ (u.lockedOut k).tuning = u.tuning ∧ (u.lockedOut k).stage1 = u.stage1 ∧
      (u.lockedOut k).stage2 = u.stage2 := by
  unfold PocketUnit.lockedOut
  dsimp only
  split
  · exact ⟨rfl, rfl, rfl, rfl⟩
  · split <;> exact ⟨rfl, rfl, rfl, rfl⟩

theorem Blocks.overheated_frame (b : Blocks) (p : Pocket) (before : Blocks) :
    b.SeqFrame (fun _ => False) (b.overheated p before) := by
  unfold Blocks.overheated
  split
  · rw [← Blocks.lockoutFault_eq]
    exact (b.raiseCause_frame _).trans (Blocks.lockoutFault_frame _ p _)
  · exact .refl b

theorem Blocks.coolTarget_congr {b c : Blocks} {p : Pocket} (inlet : c.inlet = b.inlet)
    (tuning : (c.pocket p).tuning = (b.pocket p).tuning) : c.coolTarget p = b.coolTarget p := by
  unfold Blocks.coolTarget
  rw [inlet, tuning]

theorem PocketUnit.evaluateWants_rest (u : PocketUnit) :
    u.evaluateWants.cycle = u.cycle ∧ u.evaluateWants.tuning = u.tuning ∧ u.evaluateWants.exhaust = u.exhaust ∧
      u.evaluateWants.drum = u.drum := by
  unfold PocketUnit.evaluateWants
  split <;> exact ⟨rfl, rfl, rfl, rfl⟩

/-- An exhaust update answers a new overheat, then evaluates the wants, then ends cooling at or below the cool target. -/
theorem Blocks.exhaustUpdated_eq {b before : Blocks} {p : Pocket} {te : Int}
    (filtered : (b.pocket p).exhaust.filtered = some te) :
    b.exhaustUpdated p (before.overheat p) =
      let wanted := (b.overheated p before).evaluateWants p
      if (wanted.pocket p).cycle.state = .cooling ∧ te ≤ wanted.coolTarget p then wanted.coolEnd p else wanted := by
  have locked : (if !before.overheat p && b.overheat p then (b.raiseCause (.overheat p)).lockoutFault p .overheat else b) =
      b.overheated p before := by
    rw [Blocks.lockoutFault_eq]
    unfold Blocks.overheated
    cases before.overheat p <;> cases b.overheat p <;> rfl
  have same : (((b.overheated p before).evaluateWants p).pocket p).exhaust.filtered = some te := by
    rw [Blocks.evaluateWants, Blocks.modPocket_pocket, (PocketUnit.evaluateWants_rest _).2.2.1,
      (b.overheated_frame p before).exhaust, filtered]
  unfold Blocks.exhaustUpdated
  rw [locked]
  simp only [same, decide_eq_true_eq]

/-- The state of a pocket and its cool target after the overheat has been answered and the wants evaluated. -/
theorem Blocks.coolTarget_afterOverheat (b : Blocks) (p : Pocket) (before : Blocks) :
    ((b.overheated p before).evaluateWants p).coolTarget p = b.coolTarget p := by
  have frame := b.overheated_frame p before
  refine (Blocks.coolTarget_congr ?_ ?_).trans (Blocks.coolTarget_congr frame.inlet (frame.tuning p))
  · exact Blocks.modPocket_inlet _ p _
  · rw [Blocks.evaluateWants, Blocks.modPocket_pocket, (PocketUnit.evaluateWants_rest _).2.1]

theorem Blocks.evaluateWants_cycle (b : Blocks) (p : Pocket) :
    ((b.evaluateWants p).pocket p).cycle = (b.pocket p).cycle := by
  rw [Blocks.evaluateWants, Blocks.modPocket_pocket, (PocketUnit.evaluateWants_rest _).1]

end Sys2Proof.Machine
end

section
/-! SUPPORT. The statements on temperature samples, on the end of cooling by temperature and on the wants (R35, R75 to R80, R86,
R87). -/

namespace Sys2Proof.Machine

/-! ## A good sample of an OK exhaust channel -/

/-- The blocks with a good sample in the exhaust channel of a pocket. -/
def Blocks.withSample (b : Blocks) (p : Pocket) (raw good : Nat) : Blocks :=
  b.modPocket p fun u => { u with exhaust := u.exhaust.sampled b.working raw good }

/-- The filtered temperature after a good sample. -/
def Channel.nextFiltered (c : Channel) (row : List Byte) (raw : Nat) : Int :=
  let t := translate row raw
  (if c.ring = [] then [t, t, t, t] else c.ring.drop 1 ++ [t]).sum.fdiv 4

section

variable (b : Blocks) (p : Pocket) (raw good : Nat)

theorem Blocks.withSample_filtered :
    ((b.withSample p raw good).pocket p).exhaust.filtered =
      some ((b.pocket p).exhaust.nextFiltered b.working raw) := by
  rw [Blocks.withSample, Blocks.modPocket_pocket]
  rfl

theorem Blocks.withSample_overheat :
    (b.withSample p raw good).overheat p = true ↔ b.heatLimit ≤ (b.pocket p).exhaust.nextFiltered b.working raw := by
  have limit : (b.withSample p raw good).heatLimit = b.heatLimit := by cases p <;> rfl
  unfold Blocks.overheat
  rw [Blocks.withSample_filtered, limit]
  exact decide_eq_true_iff

theorem Blocks.withSample_rest :
    ((b.withSample p raw good).pocket p).cycle = (b.pocket p).cycle ∧
      (b.withSample p raw good).coolTarget p = b.coolTarget p := by
  have unit : ((b.withSample p raw good).pocket p).tuning = (b.pocket p).tuning ∧
      ((b.withSample p raw good).pocket p).cycle = (b.pocket p).cycle := by
    rw [Blocks.withSample, Blocks.modPocket_pocket]
    exact ⟨rfl, rfl⟩
  exact ⟨unit.2, Blocks.coolTarget_congr (Blocks.modPocket_inlet ..) unit.1⟩

/-- What a filtered update leaves: the overheat answered, the wants evaluated, cooling ended at the cool target. -/
theorem Blocks.handUpdate_withSample :
    let te := (b.pocket p).exhaust.nextFiltered b.working raw
    let wanted := ((b.withSample p raw good).overheated p b).evaluateWants p
    (b.withSample p raw good).handUpdate (.exhaust p) b =
      if (wanted.pocket p).cycle.state = .cooling ∧ te ≤ b.coolTarget p then wanted.coolEnd p else wanted := by
  intro te wanted
  have target : wanted.coolTarget p = b.coolTarget p :=
    (Blocks.coolTarget_afterOverheat _ p b).trans (b.withSample_rest p raw good).2
  refine (Blocks.exhaustUpdated_eq (b.withSample_filtered p raw good)).trans ?_
  dsimp only
  rw [target]

/-- No overheat newly holds. -/
theorem Blocks.overheated_of_none
    (none : (b.pocket p).exhaust.nextFiltered b.working raw < b.heatLimit ∨ b.overheat p = true) :
    (b.withSample p raw good).overheated p b = b.withSample p raw good := by
  refine if_neg fun ⟨before, now⟩ => ?_
  rw [Blocks.withSample_overheat] at now
  obtain below | already := none
  · exact absurd now (Int.not_le.2 below)
  · simp [already] at before

/-- An overheat newly holds. -/
theorem Blocks.overheated_of_new (before : b.overheat p = false)
    (now : b.heatLimit ≤ (b.pocket p).exhaust.nextFiltered b.working raw) :
    (b.withSample p raw good).overheated p b =
      (b.raiseCause (.overheat p)).modPocket p fun u =>
        { u with exhaust := u.exhaust.sampled b.working raw good }.lockedOut .overheat := by
  rw [Blocks.overheated, if_pos ⟨before, (b.withSample_overheat p raw good).2 now⟩, Blocks.withSample,
    Blocks.raiseCause_modPocket, Blocks.modPocket_modPocket]
  exact fun _ => ⟨rfl, rfl⟩

end

theorem sampled_of_ok {c : Channel} (ok : c.fault = none) (row : List Byte) (raw : Nat) :
    let t := translate row raw
    let ring := if c.ring = [] then [t, t, t, t] else c.ring.drop 1 ++ [t]
    c.sampled row raw c.good =
      { c with
        lastRaw := raw, bad := 0, ring := ring, translated := some t, filtered := some (ring.sum.fdiv 4) } := by
  simp [Channel.sampled, ok]

/-- A good sample of an OK exhaust channel. -/
theorem Blocks.takeSample_exhaust {b : Blocks} {p : Pocket} {raw : Nat} (ok : (b.pocket p).exhaust.fault = none)
    (good : goodRaw raw = true) :
    b.takeSample (.exhaust p) raw =
      (b.withSample p raw (b.pocket p).exhaust.good).handUpdate (.exhaust p) b := by
  have same : b.modChannel (.exhaust p) (fun c => c.sampled b.working raw c.good) =
      b.withSample p raw (b.pocket p).exhaust.good :=
    Blocks.modChannel_congr (ch := .exhaust p) (g := fun c => c.sampled b.working raw (b.pocket p).exhaust.good) rfl
  rw [Blocks.takeSample_of_ok (ch := .exhaust p) ok good, same]

/-- Settles O41: the sample of the inlet and of an exhaust channel that is OK. -/
theorem goodSampleEntersTheRing : Obligations.GoodSampleEntersTheRing := by
  intro s ch raw run low high ok c lowPoint highPoint t ring filtered free
  have good := goodRaw_iff.2 ⟨low, high⟩
  have channel : s.blocks.modChannel ch (fun c => c.sampled s.blocks.working raw.toNat (s.blocks.channel ch).good) =
      s.blocks.modChannel ch fun c =>
        { c with
          lastRaw := raw.toNat, bad := 0, ring := ring, translated := some t, filtered := some filtered } :=
    Blocks.modChannel_congr (sampled_of_ok ok s.blocks.working raw.toNat)
  dsimp only
  rw [← channel]
  cases ch with
  | inlet => exact State.settlesAs_sample run (Blocks.takeSample_of_ok ok good)
  | exhaust p =>
    obtain ⟨noOverheat, notCooling⟩ := free p rfl
    refine State.settlesAs_sample run ((Blocks.takeSample_exhaust ok good).trans
      ((Blocks.handUpdate_withSample ..).trans ?_))
    rw [Blocks.overheated_of_none _ _ _ _ noOverheat, Blocks.evaluateWants_cycle, (Blocks.withSample_rest ..).1]
    exact if_neg fun both => notCooling both.1

/-- Settles O33: cooling ended by time and by temperature, and the rows of R36's table. -/
theorem coolingEndsByTheTable : Obligations.CoolingEndsByTheTable := by
  unfold Obligations.CoolingEndsByTheTable
  refine ⟨fun s p run cooling => ⟨fun ended => ?_, fun raw low high ok => ?_⟩, fun b p => ?_⟩
  · refine State.settlesTo_of_when run rfl ?_ rfl (s.blocks.coolEnd_sameLists p)
    simp only [cooling, decide_eq_true ended]
    rfl
  · intro t ring filtered updated noOverheat
    have good := goodRaw_iff.2 ⟨low, high⟩
    have sampled : (s.blocks.withSample p raw.toNat (s.blocks.pocket p).exhaust.good).evaluateWants p = updated :=
      congrArg (fun b : Blocks => b.evaluateWants p) (Blocks.modPocket_congr
        (congrArg (fun c => { s.blocks.pocket p with exhaust := c }) (sampled_of_ok ok s.blocks.working raw.toNat)))
    refine State.settlesAs_sample run ((Blocks.takeSample_exhaust ok good).trans
      ((Blocks.handUpdate_withSample ..).trans ?_))
    rw [Blocks.overheated_of_none _ _ _ _ noOverheat, Blocks.evaluateWants_cycle, (Blocks.withSample_rest ..).1, sampled]
    simp only [cooling, true_and]
    rfl
  · dsimp only
    refine ⟨fun recorded => ?_, fun none aborted => ?_, fun none ended crease free => ?_, fun none ended crease => ?_⟩
    · rw [Blocks.coolEnd_of_lockout recorded, Blocks.goFaulted_eq]
    · rw [Blocks.coolEnd_of_aborted none aborted, Blocks.enterIdle_eq]
    · rw [Blocks.coolEnd_of_crease none ended crease, Blocks.enterCreaseGuard_eq free]
    · rw [Blocks.coolEnd_of_done none ended crease, Blocks.enterDone_eq]

/-! ## The table of R41 -/

section

variable {u : PocketUnit} (k : Lockout)

theorem PocketUnit.lockedOut_of_heating (unlocked : u.cycle.lockout = none)
    (state : u.cycle.state = .starting ∨ u.cycle.state = .drying ∨ u.cycle.state = .extending) :
    u.lockedOut k = { u with cycle := { u.cycle with lockout := some k, state := .cooling, startTarget := none } } := by
  obtain state | state | state := state <;> simp [PocketUnit.lockedOut, unlocked, state]

theorem PocketUnit.lockedOut_of_cooling (unlocked : u.cycle.lockout = none) (state : u.cycle.state = .cooling) :
    u.lockedOut k = { u with cycle := { u.cycle with lockout := some k } } := by
  simp [PocketUnit.lockedOut, unlocked, state]

theorem PocketUnit.lockedOut_of_standing (unlocked : u.cycle.lockout = none)
    (state : u.cycle.state = .paused ∨ u.cycle.state = .creaseGuard) :
    u.lockedOut k =
      { u with
        cycle := { u.cycle with lockout := some k, state := .faulted, startTarget := none, resume := none }
        drum := u.drum.askedToStop } := by
  obtain state | state := state <;> simp [PocketUnit.lockedOut, unlocked, state]

theorem PocketUnit.lockedOut_of_rest
    (stands : u.cycle.lockout.isSome = true ∨ u.cycle.state = .idle ∨ u.cycle.state = .done ∨ u.cycle.state = .faulted ∨
      u.cycle.state = .held) : u.lockedOut k = u := by
  obtain recorded | state | state | state | state := stands
  · simp [PocketUnit.lockedOut, recorded]
  all_goals simp [PocketUnit.lockedOut, state]

end

/-! ## Overheat (R80) -/

/-- Settles O42: the update newly holding the overheat, by the pocket's state and lockout cause. -/
theorem overheatIsRaisedAndLocksOut : Obligations.OverheatIsRaisedAndLocksOut := by
  intro s p raw run low high u t ring exhaust answers ok before now
  have good := goodRaw_iff.2 ⟨low, high⟩
  have channel : u.exhaust.sampled s.blocks.working raw.toNat u.exhaust.good = exhaust := sampled_of_ok ok _ _
  have raised : ((s.blocks.raiseCause (.overheat p)).pocket p) = u := Blocks.raiseCause_pocket ..
  have answered : ∀ f : PocketUnit → PocketUnit,
      { u with exhaust := exhaust }.lockedOut .overheat = f u →
      ((f u).cycle.state = .cooling → s.blocks.coolTarget p < ring.sum.fdiv 4) →
      answers ((s.blocks.raiseCause (.overheat p)).modPocket p f) := by
    intro f same above
    have locked : (s.blocks.withSample p raw.toNat u.exhaust.good).overheated p s.blocks =
        (s.blocks.raiseCause (.overheat p)).modPocket p f := by
      rw [Blocks.overheated_of_new _ _ _ _ before now]
      refine Blocks.modPocket_congr ?_
      rw [raised, channel]
      exact same
    refine State.settlesAs_sample run ((Blocks.takeSample_exhaust ok good).trans
      ((Blocks.handUpdate_withSample ..).trans ?_))
    rw [locked, Blocks.evaluateWants_cycle, Blocks.modPocket_pocket, raised]
    exact if_neg fun ⟨cooling, reached⟩ => absurd reached (Int.not_le.2 (above cooling))
  refine ⟨fun none state above => ?_, fun none state above => ?_, fun none state => ?_, fun stands => ?_⟩
  · exact answered _ (PocketUnit.lockedOut_of_heating .overheat none state) fun _ => above
  · exact answered _ (PocketUnit.lockedOut_of_cooling .overheat none state) fun _ => above
  · exact answered _ (PocketUnit.lockedOut_of_standing .overheat none state) fun cooling => by simp at cooling
  · refine answered _ (PocketUnit.lockedOut_of_rest .overheat (stands.imp_left fun both => both.1)) fun cooling => ?_
    obtain ⟨-, notCooling | above⟩ | state | state | state | state := stands
    · exact absurd cooling notCooling
    · exact above
    all_goals simp [show u.cycle.state = _ from state] at cooling

/-! ## Bad samples and recovery (R78, R79) -/

/-- A faulted channel raises SENSOR and locks its pocket out (R78). -/
theorem Blocks.lockedOut_afterFault (b : Blocks) (p : Pocket) (faulted : Channel) {f : Channel → Channel}
    (same : f (b.pocket p).exhaust = faulted) :
    ((b.modChannel (.exhaust p) f).raiseCause (.sensor p)).lockoutFault p .sensor =
      (b.raiseCause (.sensor p)).modPocket p fun u => { u with exhaust := faulted }.lockedOut .sensor := by
  rw [Blocks.lockoutFault_eq, Blocks.modChannel, Blocks.raiseCause_modPocket, Blocks.modPocket_modPocket]
  · refine Blocks.modPocket_congr ?_
    rw [Blocks.raiseCause_pocket, same]
  · exact fun _ => ⟨rfl, rfl⟩

/-- Settles O43: the sample by the channel's fault, its goodness and the streaks. -/
theorem badSamplesFaultAndGoodOnesRecover : Obligations.BadSamplesFaultAndGoodOnesRecover := by
  intro s ch raw run c good side t answers faulted
  have isGood : good → goodRaw raw.toNat = true := goodRaw_iff.2
  have isBad : ¬good → goodRaw raw.toNat = false := fun bad => Bool.eq_false_iff.2 (mt goodRaw_iff.1 bad)
  refine ⟨fun ok bad few => ?_, fun ok bad third => ?_, fun isFaulted bad => ?_, fun isFaulted isOk short => ?_,
    fun isFaulted isOk tenth => ?_⟩
  · exact State.settlesAs_sample run (Blocks.takeSample_of_bad ok (isBad bad) few)
  · have answer := Blocks.takeSample_of_third ok (isBad bad) third
    refine ⟨fun inlet => ?_, fun p exhaust => ?_⟩
    · subst inlet
      exact State.settlesAs_sample run answer
    · subst exhaust
      intro k locks
      have fallen : s.blocks.takeSample (.exhaust p) raw.toNat =
          (s.blocks.raiseCause (.sensor p)).modPocket p fun u => { u with exhaust := faulted }.lockedOut .sensor :=
        answer.trans (s.blocks.lockedOut_afterFault p faulted (f := fun c => c.faulted raw.toNat) rfl)
      have locked : ∀ f : PocketUnit → PocketUnit,
          { s.blocks.pocket p with exhaust := faulted }.lockedOut .sensor =
            f { s.blocks.pocket p with exhaust := faulted } → locks f := by
        intro f same
        refine State.settlesAs_sample run (fallen.trans (Blocks.modPocket_congr ?_))
        rw [Blocks.raiseCause_pocket]
        exact same
      clear_value locks
      refine ⟨fun none state => locked _ ?_, fun none state => locked _ ?_, fun none state => locked _ ?_,
        fun stands => locked _ ?_⟩
      · exact PocketUnit.lockedOut_of_heating .sensor none state
      · exact PocketUnit.lockedOut_of_cooling .sensor none state
      · exact PocketUnit.lockedOut_of_standing .sensor none state
      · exact PocketUnit.lockedOut_of_rest .sensor stands
  · exact State.settlesAs_sample run (Blocks.takeSample_of_still_bad isFaulted (isBad bad))
  · exact State.settlesAs_sample run (Blocks.takeSample_of_counted isFaulted (isGood isOk) short)
  · have answer := Blocks.takeSample_of_recovery isFaulted (isGood isOk) tenth
    intro ring te updated
    refine ⟨fun empty => ?_, fun inlet => ?_, fun p exhaust => ?_⟩
    · simp only [te, ring, if_pos empty]
      rw [Int.fdiv_eq_ediv_of_nonneg _ (by decide)]
      simp only [List.sum_cons, List.sum_nil]
      omega
    · subst inlet
      exact State.settlesAs_sample run answer
    · subst exhaust
      intro locked wanted
      have overheat : (s.blocks.withSample p raw.toNat 0).overheated p s.blocks = locked := by
        unfold Blocks.overheated
        have same : s.blocks.withSample p raw.toNat 0 = updated :=
          Blocks.modChannel_congr (ch := .exhaust p) (f := fun c => c.sampled s.blocks.working raw.toNat 0) rfl
        simp only [Blocks.withSample_overheat, and_comm (b := s.blocks.heatLimit ≤ _)]
        rw [same]
        rfl
      refine State.settlesAs_sample run (answer.trans
        ((Blocks.exhaustUpdated_eq (s.blocks.withSample_filtered p raw.toNat 0)).trans ?_))
      rw [overheat]
      rfl

/-! ## The wants (R86, R87) -/

/-- The band law of one stage: need, upper edge and band, the want before and after at a filtered temperature. -/
theorem wantAt_spec (need : Prop) [Decidable need] (upper band te : Int) (want : Bool) :
    let after := wantAt (decide need) (upper - band) upper te want
    (¬need → after = false) ∧ (need → te ≤ upper - band → after = true) ∧
      (need → upper - band < te → upper ≤ te → after = false) ∧
      (need → upper - band < te → te < upper → after = want) := by
  intro after
  refine ⟨fun unmet => ?_, fun met low => ?_, fun met above high => ?_, fun met above below => ?_⟩
  · simp [after, wantAt, unmet]
  · simp [after, wantAt, met, low]
  · simp [after, wantAt, met, Int.not_le.2 above, high]
  · simp [after, wantAt, met, Int.not_le.2 above, Int.not_le.2 below]

theorem wantAt_wantAt (need : Bool) (lower upper te : Int) (want : Bool) :
    wantAt need lower upper te (wantAt need lower upper te want) = wantAt need lower upper te want := by
  unfold wantAt
  split
  · rfl
  · split
    · rfl
    · split <;> rfl

/-- The wants of a pocket evaluated at a temperature. -/
theorem PocketUnit.evaluateWants_of_filtered {u : PocketUnit} {te : Int} (filtered : u.exhaust.filtered = some te) :
    u.evaluateWants =
      { u with
        stage1 := { u.stage1 with
          want := wantAt (decide (1 ≤ u.tuning.heatLevel)) (u.tuning.heatSet - u.tuning.heatBand) u.tuning.heatSet te
            u.stage1.want }
        stage2 := { u.stage2 with
          want := wantAt (decide (2 ≤ u.tuning.heatLevel))
            ((u.tuning.heatSet : Int) - u.tuning.stage2Offset - u.tuning.heatBand)
            ((u.tuning.heatSet : Int) - u.tuning.stage2Offset) te u.stage2.want } } := by
  unfold PocketUnit.evaluateWants
  rw [filtered]

theorem PocketUnit.evaluateWants_of_none {u : PocketUnit} (none : u.exhaust.filtered = none) : u.evaluateWants = u := by
  unfold PocketUnit.evaluateWants
  rw [none]

/-- An evaluation at the temperature of the last one changes nothing. -/
theorem PocketUnit.evaluateWants_evaluateWants (u : PocketUnit) : u.evaluateWants.evaluateWants = u.evaluateWants := by
  cases filtered : u.exhaust.filtered with
  | none => rw [PocketUnit.evaluateWants_of_none filtered, PocketUnit.evaluateWants_of_none filtered]
  | some te =>
    have same : u.evaluateWants.exhaust.filtered = some te := by rw [(PocketUnit.evaluateWants_rest u).2.2.1, filtered]
    rw [PocketUnit.evaluateWants_of_filtered same, PocketUnit.evaluateWants_of_filtered filtered]
    simp only [wantAt_wantAt]

/-- The evaluation reads the exhaust channel, the fields and the wants alone. -/
theorem PocketUnit.evaluateWants_stages {u v : PocketUnit} (exhaust : v.exhaust = u.exhaust) (tuning : v.tuning = u.tuning)
    (first : v.stage1 = u.stage1) (second : v.stage2 = u.stage2) :
    v.evaluateWants.stage1 = u.evaluateWants.stage1 ∧ v.evaluateWants.stage2 = u.evaluateWants.stage2 := by
  unfold PocketUnit.evaluateWants
  rw [exhaust, tuning, first, second]
  split
  · exact ⟨first, second⟩
  · exact ⟨rfl, rfl⟩

theorem Blocks.stage_stagesOf (b : Blocks) (p : Pocket) :
    b.stage (stagesOf p).1 = (b.pocket p).stage1 ∧ b.stage (stagesOf p).2 = (b.pocket p).stage2 := by
  cases p <;> exact ⟨rfl, rfl⟩

/-- Wants that have been evaluated stand so at the end of the event. -/
theorem Blocks.settle_wants_of_evaluated {b : Blocks} {p : Pocket} {u : PocketUnit}
    (stages : (b.pocket p).stage1 = u.evaluateWants.stage1 ∧ (b.pocket p).stage2 = u.evaluateWants.stage2)
    (reads : (b.pocket p).exhaust = u.exhaust ∧ (b.pocket p).tuning = u.tuning) :
    (b.settle.pocket p).stage1.want = u.evaluateWants.stage1.want ∧
      (b.settle.pocket p).stage2.want = u.evaluateWants.stage2.want := by
  obtain ⟨first, second⟩ := stages
  obtain ⟨-, tuning, exhaust, -⟩ := u.evaluateWants_rest
  obtain ⟨again₁, again₂⟩ := PocketUnit.evaluateWants_stages (reads.1.trans exhaust.symm) (reads.2.trans tuning.symm)
    first second
  rw [PocketUnit.evaluateWants_evaluateWants] at again₁ again₂
  have evaluated : (b.evaluateWants p).pocket p = (b.pocket p).evaluateWants := b.modPocket_pocket p _
  have owner : stagePocket (stagesOf p).1 = p ∧ stagePocket (stagesOf p).2 = p := by cases p <;> exact ⟨rfl, rfl⟩
  obtain ⟨own₁, own₂⟩ := owner
  have want₁ := b.settle_want (stagesOf p).1
  have want₂ := b.settle_want (stagesOf p).2
  rw [own₁, (Blocks.stage_stagesOf _ p).1, (Blocks.stage_stagesOf _ p).1, (Blocks.stage_stagesOf _ p).1, evaluated, again₁,
    first, or_self] at want₁
  rw [own₂, (Blocks.stage_stagesOf _ p).2, (Blocks.stage_stagesOf _ p).2, (Blocks.stage_stagesOf _ p).2, evaluated, again₂,
    second, or_self] at want₂
  exact ⟨want₁, want₂⟩

/-- The update of an exhaust channel leaves its pocket's wants evaluated, and what they are evaluated from standing. -/
theorem Blocks.handUpdate_wants (b : Blocks) (p : Pocket) (raw good : Nat) :
    let u := (b.withSample p raw good).pocket p
    let c := (b.withSample p raw good).handUpdate (.exhaust p) b
    ((c.pocket p).stage1 = u.evaluateWants.stage1 ∧ (c.pocket p).stage2 = u.evaluateWants.stage2) ∧
      (c.pocket p).exhaust = u.exhaust ∧ (c.pocket p).tuning = u.tuning := by
  intro u c
  let locked := (b.withSample p raw good).overheated p b
  have frame := (b.withSample p raw good).overheated_frame p b
  have after : (locked.evaluateWants p).SeqFrame (fun _ => False) c := by
    simp only [c]
    rw [Blocks.handUpdate_withSample]
    split
    · exact Blocks.coolEnd_frame _ p
    · exact .refl _
  have evaluated : (locked.evaluateWants p).pocket p = (locked.pocket p).evaluateWants := locked.modPocket_pocket p _
  obtain ⟨first, second⟩ := after.stages p
  obtain ⟨-, tuning, exhaust, -⟩ := (locked.pocket p).evaluateWants_rest
  obtain ⟨wants₁, wants₂⟩ :=
    PocketUnit.evaluateWants_stages (frame.exhaust p) (frame.tuning p) (frame.stages p).1 (frame.stages p).2
  rw [first, second, after.exhaust p, after.tuning p, evaluated]
  exact ⟨⟨wants₁, wants₂⟩, exhaust.trans (frame.exhaust p), tuning.trans (frame.tuning p)⟩

theorem Blocks.settle_exhaust (b : Blocks) (p : Pocket) : (b.settle.pocket p).exhaust = (b.pocket p).exhaust := by
  have same := congrArg PocketUnit.exhaust (b.settle_pocket_apart p)
  exact same

/-- Settles O44: an exhaust update leaves the wants evaluated, and settling keeps them so. -/
theorem wantsFollowTheBands : Obligations.WantsFollowTheBands := by
  unfold Obligations.WantsFollowTheBands
  refine ⟨fun s p raw run low high ok => ?_, fun b p => ?_⟩
  · have good := goodRaw_iff.2 ⟨low, high⟩
    obtain ⟨answers, -⟩ := State.settlesAs_sample run (Blocks.takeSample_exhaust ok good)
    obtain ⟨evaluated, reads⟩ := s.blocks.handUpdate_wants p raw.toNat (s.blocks.pocket p).exhaust.good
    obtain ⟨want₁, want₂⟩ := Blocks.settle_wants_of_evaluated evaluated reads
    have filtered := s.blocks.withSample_filtered p raw.toNat (s.blocks.pocket p).exhaust.good
    have sampled : (s.blocks.withSample p raw.toNat (s.blocks.pocket p).exhaust.good).pocket p =
        { s.blocks.pocket p with exhaust :=
          (s.blocks.pocket p).exhaust.sampled s.blocks.working raw.toNat (s.blocks.pocket p).exhaust.good } :=
      s.blocks.modPocket_pocket p _
    rw [PocketUnit.evaluateWants_of_filtered filtered, sampled] at want₁ want₂
    have shown := (Blocks.settle_exhaust _ p).trans reads.1
    refine ⟨_, answers, ?_, fun te now => ?_⟩
    · rw [shown, filtered]
      rfl
    · rw [shown, filtered] at now
      obtain rfl := Option.some.inj now
      intro f want
      rw [want₁, want₂]
      exact ⟨wantAt_spec (1 ≤ f.heatLevel) f.heatSet f.heatBand _ _, wantAt_spec (2 ≤ f.heatLevel) _ f.heatBand _ _⟩
  · intro u f
    refine ⟨u.evaluateWants.stage1.want, u.evaluateWants.stage2.want, Blocks.modPocket_congr ?_, fun none => ?_,
      fun te filtered => ?_⟩
    · cases filtered : u.exhaust.filtered with
      | none => rw [PocketUnit.evaluateWants_of_none filtered]
      | some te => rw [PocketUnit.evaluateWants_of_filtered filtered]
    · rw [PocketUnit.evaluateWants_of_none none]
      exact ⟨rfl, rfl⟩
    · intro want
      rw [PocketUnit.evaluateWants_of_filtered filtered]
      exact ⟨wantAt_spec (1 ≤ f.heatLevel) f.heatSet f.heatBand te _, wantAt_spec (2 ≤ f.heatLevel) _ f.heatBand te _⟩

end Sys2Proof.Machine
end

section
/-! SUPPORT. The mains: zero crossings and the loss (R107 to R113); the dryness unit: samples, windows, dry reports (R117 to
R129). -/

namespace Sys2Proof.Machine

/-! ## The mains -/

/-- Presenting a cause meets nothing of the load share unit. -/
theorem Blocks.present_modMains (b : Blocks) (k : Cause) (f : Mains → Mains) :
    (b.present k).modMains f = (b.modMains f).present k := by
  have entry : ∀ a : Alerts, Blocks.entryFor { b.modMains f with alerts := a } k = Blocks.entryFor { b with alerts := a } k :=
    fun a => by cases k <;> rfl
  have alerts : (b.modMains f).alerts = b.alerts := rfl
  unfold Blocks.present Blocks.makePending
  rw [entry, alerts]
  split
  · rfl
  · split <;> rfl

theorem LoadShare.switchOutputs_eq (l : LoadShare) (stages : List Stage) :
    l.switchOutputs stages =
      { l with
        outA1 := decide (Stage.a1 ∈ stages), outA2 := decide (Stage.a2 ∈ stages)
        outB1 := decide (Stage.b1 ∈ stages), outB2 := decide (Stage.b2 ∈ stages) } := by
  simp [LoadShare.switchOutputs, List.contains_eq_mem]

/-- The blocks when a crossing has kept the greater peak (R107). -/
def Blocks.withPeak (b : Blocks) (peak : Nat) : Blocks := b.modMains fun m => { m with keptPeak := max m.keptPeak peak }

theorem Blocks.crossingQualified_iff (b : Blocks) (peak : Nat) :
    (b.withPeak peak).crossingQualified = true ↔
      b.load.mains.halfOpen = false ∨ b.load.mains.crossedAt + 4000 ≤ b.clock := by
  rw [Blocks.crossingQualified, Bool.or_eq_true, Bool.not_eq_true', decide_eq_true_iff]
  rfl

theorem State.exec_zeroCrossing {s : State} (run : s.phase = .running) (peak : Byte) :
    exec (.zeroCrossing peak) s =
      .next { s with blocks :=
        (s.blocks.withPeak peak.toNat).when (s.blocks.withPeak peak.toNat).crossingQualified fun b => b.crossing.settle } := by
  change execZeroCrossing peak s = _
  rw [execZeroCrossing, State.onBlocks_of_running s run]
  rfl

/-- A qualified crossing acts (R109). -/
theorem State.settlesTo_crossing {s : State} (run : s.phase = .running) {peak : Byte}
    (qualified : s.blocks.load.mains.halfOpen = false ∨ s.blocks.load.mains.crossedAt + 4000 ≤ s.blocks.clock)
    {before : Blocks} (same : (s.blocks.withPeak peak.toNat).crossing = before) : s.SettlesTo (.zeroCrossing peak) before := by
  subst same
  refine ⟨?_, fun lists => Blocks.settle_settled _ ?_⟩
  · rw [State.exec_zeroCrossing run, (Blocks.crossingQualified_iff ..).2 qualified]
    rfl
  · have held : (s.blocks.withPeak peak.toNat).ListsAgree := (s.blocks.modMains_sameLists _).listsAgree lists
    exact ((s.blocks.withPeak peak.toNat).crossing_keeps (P := fun _ => False)).lists held

theorem Blocks.cost_pos (b : Blocks) (st : Stage) : 1 ≤ b.cost st := by
  cases st <;> rw [Blocks.cost, clampNat_one_fifteen] <;> exact Nat.le_max_left _ _

/-- With no budget nothing stays granted. -/
theorem Blocks.grants_of_noBudget {b : Blocks} (fits : b.grantedSum ≤ b.effectiveBudget) (none : b.effectiveBudget = 0) :
    b.load.grants = [] := by
  cases granted : b.load.grants with
  | nil => rfl
  | cons st rest =>
    have cost := b.cost_pos st
    rw [none, Blocks.grantedSum, Blocks.costSum, granted, List.map_cons, List.sum_cons] at fits
    omega

/-- The blocks of a crossing whose amplitude has been judged with this outcome (R107, R109). -/
def Blocks.crossed (b : Blocks) (mains : Mains) : Blocks :=
  { b with load :=
    { b.load.switchOutputs b.load.grants with
      mains := { mains with halfOpen := true, keptPeak := 0, lossTimer := 0, crossedAt := b.clock } } }

section

variable {b : Blocks}

theorem Blocks.crossing_of_lost (lost : b.load.mains.state = .lost) :
    b.crossing = b.crossed { b.load.mains with state := .sagged, restoreStreak := 0 } := by
  simp only [Blocks.crossing, lost, if_true]
  rfl

theorem Blocks.crossing_of_closed (notLost : b.load.mains.state ≠ .lost) (closed : b.load.mains.halfOpen = false) :
    b.crossing = b.crossed b.load.mains := by
  simp only [Blocks.crossing, notLost, closed, if_false, Bool.false_eq_true]
  rfl

/-- The blocks whose open half-cycle's amplitude is being judged. -/
def Blocks.halfCycleEnded (b : Blocks) : Blocks :=
  (b.modLoad fun l => l.switchOutputs l.grants).modMains fun m => { m with lastAmplitude := b.load.mains.keptPeak }

/-- With the kept peak as it stands at the crossing. -/
theorem Blocks.withPeak_halfCycleEnded (b : Blocks) (peak : Nat) :
    (b.withPeak peak).halfCycleEnded =
      { b with load :=
        { b.load.switchOutputs b.load.grants with
          mains :=
            { b.load.mains with
              keptPeak := max b.load.mains.keptPeak peak, lastAmplitude := max b.load.mains.keptPeak peak } } } := rfl

theorem Blocks.modMains_of_load (b : Blocks) (l : LoadShare) (f : Mains → Mains) :
    ({ b with load := l } : Blocks).modMains f = { b with load := { l with mains := f l.mains } } := rfl

theorem Blocks.crossing_of_open (notLost : b.load.mains.state ≠ .lost) (open_ : b.load.mains.halfOpen = true) :
    b.crossing =
      (b.halfCycleEnded.judgeAmplitude b.load.mains.keptPeak).modMains fun m =>
        { m with halfOpen := true, keptPeak := 0, lossTimer := 0, crossedAt := b.clock } := by
  simp only [Blocks.crossing, notLost, open_, if_false, if_true]
  rfl

variable {amp : Nat}

/-! ### The judgement of an amplitude (R110) -/

theorem Blocks.judgeAmplitude_of_normal_good (normal : b.load.mains.state = .normal) (good : ¬amp < b.sagLevel) :
    b.judgeAmplitude amp = b.modMains fun m => { m with sagStreak := 0 } := by
  simp only [Blocks.judgeAmplitude, normal, good, if_false]

theorem Blocks.judgeAmplitude_of_normal_low (normal : b.load.mains.state = .normal) (low : amp < b.sagLevel)
    (few : b.load.mains.sagStreak < 3) :
    b.judgeAmplitude amp = b.modMains fun m => { m with sagStreak := m.sagStreak + 1 } := by
  simp only [Blocks.judgeAmplitude, normal, low, if_true, if_neg (show ¬4 ≤ b.load.mains.sagStreak + 1 by omega)]

theorem Blocks.judgeAmplitude_of_sag (normal : b.load.mains.state = .normal) (low : amp < b.sagLevel)
    (fourth : 3 ≤ b.load.mains.sagStreak) :
    b.judgeAmplitude amp =
      (b.modMains fun m => { m with state := .sagged, sagStreak := 0, restoreStreak := 0 }).present .sag := by
  simp only [Blocks.judgeAmplitude, normal, low, if_true, if_pos (show 4 ≤ b.load.mains.sagStreak + 1 by omega)]

theorem Blocks.judgeAmplitude_of_sagged_low (sagged : b.load.mains.state = .sagged) (low : ¬b.restoreLevel ≤ amp) :
    b.judgeAmplitude amp = b.modMains fun m => { m with restoreStreak := 0 } := by
  simp only [Blocks.judgeAmplitude, sagged, low, if_false]

theorem Blocks.judgeAmplitude_of_sagged_good (sagged : b.load.mains.state = .sagged) (good : b.restoreLevel ≤ amp)
    (few : b.load.mains.restoreStreak < 15) :
    b.judgeAmplitude amp = b.modMains fun m => { m with restoreStreak := m.restoreStreak + 1 } := by
  simp only [Blocks.judgeAmplitude, sagged, good, if_true, if_neg (show ¬16 ≤ b.load.mains.restoreStreak + 1 by omega)]

theorem Blocks.judgeAmplitude_of_restore (sagged : b.load.mains.state = .sagged) (good : b.restoreLevel ≤ amp)
    (last : 15 ≤ b.load.mains.restoreStreak) :
    b.judgeAmplitude amp = (b.modMains fun m => { m with state := .normal, restoreStreak := 0 }).withdrawCause .sag := by
  simp only [Blocks.judgeAmplitude, sagged, good, if_true, if_pos (show 16 ≤ b.load.mains.restoreStreak + 1 by omega)]

end

/-! ### The loss (R111) -/

theorem Blocks.effectiveBudget_of_lost {b : Blocks} (lost : b.load.mains.state = .lost) : b.effectiveBudget = 0 :=
  if_pos (.inl (by simp [lost]))

theorem Blocks.loseMains_state (b : Blocks) : b.loseMains.load.mains.state = .lost := by
  unfold Blocks.loseMains
  dsimp only
  split
  · rw [Blocks.present, Blocks.makePending_alerts]
    rfl
  · rfl

/-- Settles O48: a crossing by the state of the mains and the amplitude's judgement, and the loss. -/
theorem crossingsAndLossJudgeTheMains : Obligations.CrossingsAndLossJudgeTheMains := by
  refine ⟨fun s peak run => ?_, fun s run last => ?_⟩
  · intro l m amp opened after crosses qualified low high
    have outputs : ∀ mains : Mains, after mains =
        { s.blocks with load := { l.switchOutputs l.grants with mains := mains } } := fun mains => by
      rw [LoadShare.switchOutputs_eq]
    have acts : qualified → ∀ {before}, (s.blocks.withPeak peak.toNat).crossing = before → crosses before :=
      fun isQualified _ same => State.settlesTo_crossing run isQualified same
    let c := (s.blocks.withPeak peak.toNat).halfCycleEnded
    let kept : Mains := { m with keptPeak := amp, lastAmplitude := amp }
    let reopens : Mains → Mains := fun m =>
      { m with halfOpen := true, keptPeak := 0, lossTimer := 0, crossedAt := s.blocks.clock }
    have ended : ∀ f : Mains → Mains, (c.modMains f).modMains reopens = after (reopens (f kept)) := fun f => by
      rw [outputs, show c = _ from s.blocks.withPeak_halfCycleEnded peak.toNat, Blocks.modMains_of_load,
        Blocks.modMains_of_load]
    have judged : qualified → m.halfOpen = true → m.state ≠ .lost → ∀ {before : Blocks},
        (c.judgeAmplitude amp).modMains reopens = before → crosses before :=
      fun isQualified open_ notLost _ same => acts isQualified
        ((Blocks.crossing_of_open (b := s.blocks.withPeak peak.toNat) notLost open_).trans same)
    refine ⟨fun not => ?_, fun closed notLost => ?_, fun isQualified lost => ?_, fun isQualified open_ normal => ?_,
      fun isQualified open_ sagged => ?_⟩
    · have unqualified : (s.blocks.withPeak peak.toNat).crossingQualified = false :=
        Bool.eq_false_iff.2 (mt (Blocks.crossingQualified_iff ..).1 not)
      rw [State.exec_zeroCrossing run, unqualified]
      rfl
    · rw [outputs]
      exact acts (.inl closed) (Blocks.crossing_of_closed (b := s.blocks.withPeak peak.toNat) notLost closed)
    · rw [outputs]
      exact acts isQualified (Blocks.crossing_of_lost (b := s.blocks.withPeak peak.toNat) lost)
    · have notLost : m.state ≠ .lost := by simp [normal]
      refine ⟨fun good => ?_, fun isLow few => ?_, fun isLow fourth => ?_⟩ <;> refine judged isQualified open_ notLost ?_
      · rw [Blocks.judgeAmplitude_of_normal_good (b := c) normal good, ended]
      · rw [Blocks.judgeAmplitude_of_normal_low (b := c) normal isLow few, ended]
      · rw [Blocks.judgeAmplitude_of_sag (b := c) normal isLow fourth, Blocks.present_modMains, ended]
    · have notLost : m.state ≠ .lost := by simp [sagged]
      refine ⟨fun bad => ?_, fun isHigh few => ?_, fun isHigh last => ?_⟩ <;> refine judged isQualified open_ notLost ?_
      · rw [Blocks.judgeAmplitude_of_sagged_low (b := c) sagged bad, ended]
      · rw [Blocks.judgeAmplitude_of_sagged_good (b := c) sagged isHigh few, ended]
      · rw [Blocks.judgeAmplitude_of_restore (b := c) sagged isHigh last]
        exact congrArg (fun b : Blocks => b.withdrawCause .sag) (ended fun m => { m with state := .normal, restoreStreak := 0 })
  · intro lost
    have answers := State.exec_of_when (c := .mainsLost) (f := Blocks.loseMains) run rfl (by simp [last])
    refine ⟨⟨answers, fun lists => ?_⟩, fun t next lists => ?_⟩
    · exact Blocks.settle_settled _ ((s.blocks.loseMains_keeps (P := fun _ => False)).lists lists)
    · obtain rfl := (Host.Outcome.next.inj (answers.symm.trans next))
      obtain ⟨-, -, -, fits, -⟩ :=
        Blocks.settle_settled _ ((s.blocks.loseMains_keeps (P := fun _ => False)).lists lists)
      refine Blocks.grants_of_noBudget fits ?_
      rw [Blocks.effectiveBudget_congr s.blocks.loseMains.settle_apartFromHeat]
      exact Blocks.effectiveBudget_of_lost s.blocks.loseMains_state

end Sys2Proof.Machine
end

section
/-! SUPPORT. The dryness unit: samples, windows, dry reports (R32, R117 to R129). -/

namespace Sys2Proof.Machine

theorem nextStreak_eq (windows w target streak : Nat) :
    nextStreak windows w target streak = if windows < 8 ∨ target < w then 0 else min 15 (streak + 1) := by
  unfold nextStreak
  by_cases early : windows < 8
  · rw [if_pos early, if_pos (.inl early)]
  · rw [if_neg early]
    by_cases wet : target < w
    · rw [if_neg (Nat.not_le.2 wet), if_pos (.inr wet)]
    · rw [if_pos (Nat.not_lt.1 wet), if_neg (not_or.2 ⟨early, wet⟩), satSucc_eq_min]

theorem Dryness.complete_eq (t : Tuning) (hits : Nat) (d : Dryness) :
    let w := ((d.wetness : Int) +
      (((min 65535 (256 * hits) : Nat) - (d.wetness : Int)) * (t.filterWeight : Int)).tdiv 64).toNat
    let windows := min 65535 (d.windows + 1)
    d.complete t hits =
      { d with
        lastHits := hits, gated := 0, hits := 0, wetness := w, windows := windows
        streak := if windows < 8 ∨ t.dryTarget < w then 0 else min 15 (d.streak + 1) } := by
  intro w windows
  unfold Dryness.complete
  rw [satSucc_eq_min]
  dsimp only
  rw [nextStreak_eq]
  rfl

theorem Blocks.completeWindow_eq (b : Blocks) (p : Pocket) (hits : Nat) :
    let u := b.pocket p
    let d := u.dryness.complete u.tuning hits
    let completed := b.modDryness p fun _ => d
    b.completeWindow p hits =
      if u.tuning.confirm ≤ d.streak then completed.dryReport p (min (u.cycle.th * u.tuning.margin / 256) 1800)
      else completed := by
  intro u d completed
  have same : (b.modPocket p fun u => { u with dryness := u.dryness.complete u.tuning hits }) = completed :=
    Blocks.modPocket_congr rfl
  have unit : completed.pocket p = { u with dryness := d } := b.modPocket_pocket p _
  unfold Blocks.completeWindow
  rw [same]
  simp only [unit, extensionOf]

theorem State.exec_electrodeSample {s : State} (run : s.phase = .running) (p : Pocket) (v : BitVec 10) :
    exec (.electrodeSample p v) s =
      .next { s with blocks := s.blocks.electrode p v.toNat, pins := s.pins.setElectrode p v } := by
  change execElectrodeSample p v s = _
  rw [execElectrodeSample, State.whileRunning, if_pos run]
  rfl

/-- A sample while the gate is open is counted (R121). -/
theorem State.settlesAs_gated {s : State} (run : s.phase = .running) {p : Pocket} {v : BitVec 10}
    (open_ : (s.blocks.pocket p).dryness.gateOpen = true) {before : Blocks}
    (same : (s.blocks.modDryness p fun d => { d with lastSample := v.toNat }).gatedSample p v.toNat = before) :
    s.SettlesAs (.electrodeSample p v) (fun b => { s with blocks := b, pins := s.pins.setElectrode p v }) before := by
  subst same
  refine ⟨?_, fun lists => Blocks.settle_settled _ ?_⟩
  · rw [State.exec_electrodeSample run, Blocks.electrode, if_pos open_]
  · have kept := (s.blocks.modDryness_sameLists p fun d => { d with lastSample := v.toNat }).listsAgree lists
    exact (Blocks.gatedSample_keeps (P := fun _ => False) _ p v.toNat).lists kept

theorem Blocks.causeAtEntry_none {b : Blocks} {p : Pocket} (none : b.causeAtEntry p = none) :
    (b.pocket p).cycle.lockout = Option.none ∧ b.lockoutConditions p = [] := by
  unfold Blocks.causeAtEntry at none
  cases unlocked : (b.pocket p).cycle.lockout with
  | none => exact ⟨rfl, by simpa [unlocked] using none⟩
  | some k => simp [unlocked] at none

/-- Settles O49: the sample by the gate and its place in the window, and the dry report by state. -/
theorem electrodeSamplesFillWindows : Obligations.ElectrodeSamplesFillWindows := by
  unfold Obligations.ElectrodeSamplesFillWindows
  refine ⟨fun s p v run => ?_, fun b p e => ⟨fun drying auto none => ?_, fun other => ?_⟩⟩
  · intro u d hits w windows streak next completed
    have seen : (s.blocks.modDryness p fun d => { d with lastSample := v.toNat }).pocket p =
        { u with dryness := { d with lastSample := v.toNat } } := s.blocks.modPocket_pocket p _
    refine ⟨fun closed => ?_, fun open_ short => ?_, fun open_ last => ?_⟩
    · rw [State.exec_electrodeSample run, Blocks.electrode,
        show (s.blocks.pocket p).dryness.gateOpen = false from closed]
      rfl
    · refine State.settlesAs_gated run open_ ?_
      unfold Blocks.gatedSample
      simp only [seen, short, if_true]
      simp only [Blocks.modDryness, Blocks.modPocket_modPocket]
      exact Blocks.modPocket_congr rfl
    · refine State.settlesAs_gated run open_ ?_
      unfold Blocks.gatedSample
      simp only [seen, if_neg (Nat.not_lt.2 last)]
      have done : ((s.blocks.modDryness p fun d => { d with lastSample := v.toNat }).modDryness p fun _ =>
          { d with lastSample := v.toNat }.complete u.tuning hits) = completed := by
        unfold Blocks.modDryness
        rw [Blocks.modPocket_modPocket]
        refine Blocks.modPocket_congr ?_
        rw [Dryness.complete_eq]
      rw [Blocks.completeWindow_eq]
      simp only [seen]
      change (if u.tuning.confirm ≤ ({ d with lastSample := v.toNat }.complete u.tuning hits).streak then
        Blocks.dryReport ((s.blocks.modDryness p fun d => { d with lastSample := v.toNat }).modDryness p fun _ =>
          { d with lastSample := v.toNat }.complete u.tuning hits) p _ else _) = _
      rw [done, Dryness.complete_eq]
  · obtain ⟨unlocked, free⟩ := Blocks.causeAtEntry_none none
    have one : b.OneCause p := .inr (by simp [free])
    have state : (b.pocket p).cycle.state = .drying ∧ (b.pocket p).tuning.mode = 0 := ⟨drying, auto⟩
    unfold Blocks.dryReport
    dsimp only
    rw [if_pos state]
    split
    case isTrue zero =>
      have kept := Blocks.modPocket_lockoutConditions (b := b) (p := p)
        (f := fun u => { u with cycle := { u.cycle with extension := 0 } }) rfl
      have still : (b.modCycle p fun c => { c with extension := 0 }).OneCause p := .inr (by
        unfold Blocks.modCycle
        simp [kept, free])
      have cause : (b.modCycle p fun c => { c with extension := 0 }).causeAtEntry p = Option.none := by
        unfold Blocks.causeAtEntry Blocks.modCycle
        simp [kept, free, unlocked]
      rw [Blocks.enterCooling_eq still, cause]
      unfold Blocks.modCycle
      rw [Blocks.modPocket_modPocket]
      refine Blocks.modPocket_congr ?_
      simp [zero, unlocked]
    case isFalse =>
      unfold Blocks.modCycle
      rw [Blocks.entryLockout_modPocket one ⟨rfl, rfl⟩, free]
      refine Blocks.modPocket_congr ?_
      simp [PocketUnit.entered]
  · unfold Blocks.dryReport
    refine if_neg fun ⟨drying, auto⟩ => ?_
    exact other.elim (fun no => no drying) fun no => no auto

end Sys2Proof.Machine
end

section
/-! SUPPORT. The timed events of the drum drive and its faults (R55, R57 to R59, R63 to R70). -/

namespace Sys2Proof.Machine

/-! ## Drum faults (R63, R68) -/

/-- The answer of the sequencer to a drum fault (R42, R48). -/
def Cycle.answersDrumFault (c : Cycle) : Cycle :=
  let lockout := some (c.lockout.getD .drum)
  match c.state with
  | .held => { c with lockout := lockout, holdFrom := some .faulted, resume := none }
  | .faulted => { c with lockout := lockout }
  | _ => { c with lockout := lockout, state := .faulted, startTarget := none, resume := none }

namespace Blocks

variable {b : Blocks} {p : Pocket}

theorem modDrum_modDrum (f g : Drum → Drum) : (b.modDrum p f).modDrum p g = b.modDrum p fun d => g (f d) := by
  simp only [modDrum, modPocket_modPocket]

theorem modDrum_congr {f g : Drum → Drum} (same : f (b.pocket p).drum = g (b.pocket p).drum) :
    b.modDrum p f = b.modDrum p g := by
  unfold modDrum
  exact modPocket_congr (by rw [same])

/-- The sequencer's answer to a fault of a drum that STOP is held for already. -/
theorem answerDrumFault_eq (stopped : (b.pocket p).drum.askedToStop = (b.pocket p).drum) :
    b.answerDrumFault p = b.modCycle p Cycle.answersDrumFault := by
  unfold answerDrumFault modCycle
  rw [goFaulted_eq, modPocket_modPocket]
  cases state : (b.pocket p).cycle.state <;>
    exact modPocket_congr (by simp [Cycle.answersDrumFault, Cycle.recordLockout, state, stopped])

theorem raiseCause_modDrum (c : Cause) (f : Drum → Drum) : (b.modDrum p f).raiseCause c = (b.raiseCause c).modDrum p f :=
  raiseCause_modPocket b c p (f := fun u => { u with drum := f u.drum }) fun _ => ⟨rfl, rfl⟩

theorem drumFault_eq (k : DrumFault) :
    b.drumFault p k =
      (b.raiseCause (.drum p)).modPocket p fun u =>
        { u with cycle := u.cycle.answersDrumFault, drum := { u.drum.askedToStop with lastFault := some k } } := by
  have stopped : ∀ d : Drum, ({ d.stopRequest with lastFault := some k } : Drum).askedToStop =
      { d.stopRequest with lastFault := some k } := by
    rintro ⟨state, _⟩
    cases state <;> rfl
  unfold drumFault
  rw [raiseCause_modDrum, answerDrumFault_eq (by rw [modDrum_pocket]; exact stopped _), modDrum, modCycle,
    modPocket_modPocket]
  simp only [Drum.stopRequest_eq]

/-- A fault of a drum whose items the event has changed first. -/
theorem drumFault_modDrum (f : Drum → Drum) (k : DrumFault) {drum : Drum}
    (stopped : { (f (b.pocket p).drum).askedToStop with lastFault := some k } = drum) :
    (b.modDrum p f).drumFault p k =
      (b.raiseCause (.drum p)).modPocket p fun u => { u with cycle := u.cycle.answersDrumFault, drum := drum } := by
  rw [drumFault_eq, raiseCause_modDrum, modDrum, modPocket_modPocket]
  refine modPocket_congr ?_
  rw [raiseCause_pocket, ← stopped]

end Blocks

/-- Settles O39: the answer of the three faults, and the finding of each. -/
theorem drumFaultsAreAnswered : Obligations.DrumFaultsAreAnswered := by
  refine ⟨fun b p k => (Blocks.drumFault_eq k).trans (Blocks.modPocket_congr ?_), ?_⟩
  · rw [Blocks.raiseCause_pocket]
    rfl
  intro s p run d
  refine ⟨?spinupFail, ?stall, ?noStop⟩
  all_goals
    intro state last
  case spinupFail =>
    have state : (s.blocks.pocket p).drum.state = .spinup := state
    have last : (s.blocks.pocket p).drum.spinTimer = 9999 := last
    refine State.settlesTo_of_when run rfl (by simp [state, last])
      (Blocks.drumFault_modDrum _ _ (by simp [Drum.askedToStop, state, d])) ?_
    exact (s.blocks.modDrum_sameLists p _).trans (Blocks.drumFault_sameLists _ p _)
  case stall =>
    have state : (s.blocks.pocket p).drum.state = .run := state
    have last : (s.blocks.pocket p).drum.silence = 2999 := last
    refine State.settlesTo_of_when run rfl (by simp [last]) ?_
      (s.blocks.silenceReached_frame (P := fun _ => False) p False.elim).sameLists
    unfold Blocks.silenceReached
    rw [state]
    exact Blocks.drumFault_modDrum _ _ (by simp [Drum.askedToStop, state, d])
  case noStop =>
    intro moving
    have state : (s.blocks.pocket p).drum.state = .coast := state
    have last : (s.blocks.pocket p).drum.coastTimer = 14999 := last
    have moving : (s.blocks.pocket p).drum.confirmed = false := moving
    refine State.settlesTo_of_when run rfl (by simp [state, last]) ?_
      (s.blocks.coastLimit_frame (P := fun _ => False) p id).sameLists
    unfold Blocks.coastLimit
    rw [moving, if_neg Bool.false_ne_true]
    exact Blocks.drumFault_modDrum _ _ (by simp [Drum.askedToStop, state, moving, d])

/-! ## Runs and coasts (R55, R57, R59, R67, R146) -/

namespace Blocks

variable {b : Blocks} {p : Pocket}

theorem trySpinUp_of_stop (stop : (b.pocket p).drum.request = .stop) : b.trySpinUp p = b := by
  unfold trySpinUp
  exact if_neg fun due => due.2.1 stop

/-- Whatever is held, a drum spins up exactly when RUN or BURST is and it stands still with its stop confirmed (R57). -/
theorem trySpinUp_eq_of_any :
    b.trySpinUp p =
      if b.spinsUp (b.pocket p).drum && (b.pocket p).drum.request != .stop then b.afterSpinUp p (b.pocket p).spinDirection
      else b := by
  by_cases stop : (b.pocket p).drum.request = .stop
  · simp [trySpinUp_of_stop stop, stop]
  · simp [trySpinUp_eq stop, stop]

theorem judgeChord_eq :
    b.judgeChord =
      if b.contacts.chord = .qualifying ∧
          (if b.pocketA.drum.state = .stopped ∧ b.pocketB.drum.state = .stopped then 50 else 2000) ≤ b.contacts.chordTimer
      then
        { b with
          contacts := { b.contacts with chord := .spent }
          pocketA := b.pocketA.panelStopped, pocketB := b.pocketB.panelStopped }
      else b := by
  unfold judgeChord
  rw [panelStop_eq]
  rfl

/-- A drum enters STOPPED: the chord first, then the spin-up (R67, R146; log entry 14). -/
theorem enterStopped_eq : b.enterStopped p = b.afterStopping p := by
  unfold enterStopped afterStopping
  rw [trySpinUp_eq_of_any, judgeChord_eq]

theorem judgeCoast_of_due (state : (b.pocket p).drum.state = .coast) (confirmed : (b.pocket p).drum.confirmed = true)
    (passed : (b.pocket p).tuning.pause * 1000 ≤ (b.pocket p).drum.coastTimer) : b.judgeCoast p = b.afterStopping p := by
  rw [judgeCoast, if_pos ⟨state, confirmed, passed⟩, enterStopped_eq]

theorem judgeCoast_of_early (early : (b.pocket p).drum.coastTimer < (b.pocket p).tuning.pause * 1000) :
    b.judgeCoast p = b := by
  rw [judgeCoast, if_neg]
  rintro ⟨-, -, passed⟩
  omega

end Blocks

/-- Settles O38: the drum's silence by its state. -/
theorem silenceConfirmsTheStop : Obligations.SilenceConfirmsTheStop := by
  intro s p run last u quiet still stands spins
  have settles : ∀ {before : Blocks}, s.blocks.silenceReached p = before → s.SettlesTo (.silenceExpiry p) before := fun same =>
    State.settlesTo_of_when run rfl (by simp [last]) same
      (s.blocks.silenceReached_frame (P := fun _ => False) p False.elim).sameLists
  have drum : (stands.pocket p).drum = still := by simp [stands]
  have tuning : (stands.pocket p).tuning = u.tuning := by simp [stands, u]
  have confirms : s.blocks.modDrum p (fun d => { d with speed := 0, reference := none, silence := 3000, confirmed := true }) =
      stands := Blocks.modDrum_congr rfl
  refine ⟨fun state => settles ?_, fun state early => settles ?_, fun state passed => settles ?_, fun state => settles ?_⟩
  all_goals
    have state : (s.blocks.pocket p).drum.state = _ := state
    unfold Blocks.silenceReached
    rw [state]
    dsimp only
  · exact Blocks.modDrum_congr rfl
  · rw [confirms]
    exact Blocks.judgeCoast_of_early (by rw [drum, tuning]; exact early)
  · rw [confirms]
    exact Blocks.judgeCoast_of_due (by rw [drum]; exact state) (by rw [drum]) (by rw [drum, tuning]; exact passed)
  · have spinsUp : stands.spinsUp = s.blocks.spinsUp := by
      funext d
      cases p <;> rfl
    have direction : (stands.pocket p).spinDirection = u.spinDirection := by
      rw [PocketUnit.spinDirection, drum, tuning]
      rfl
    rw [confirms, Blocks.trySpinUp_eq_of_any, drum, spinsUp, direction]

/-- The run length by held request, direction and REV_RUN (R59). -/
theorem runLength_eq (t : Tuning) (d : Drum) :
    runLength t d =
      if d.request ≠ .burst ∧ d.dir = .fwd ∧ t.revRun = 0 then none
      else some (if d.request = .burst then 20 else if d.dir = .fwd then t.fwdRun else t.revRun) := by
  unfold runLength
  cases d.request <;> cases d.dir <;> simp [apply_ite]

theorem Blocks.judgeRunEnd_of_due {b : Blocks} {p : Pocket} {seconds : Nat} (state : (b.pocket p).drum.state = .run)
    (length : runLength (b.pocket p).tuning (b.pocket p).drum = some seconds)
    (due : seconds * 1000 ≤ (b.pocket p).drum.runTimer) :
    b.judgeRunEnd p = b.modDrum p (Drum.endRun (b.pocket p).tuning) := by
  unfold Blocks.judgeRunEnd
  simp only [state, length, if_pos due]

/-- Settles O40: the run's end by its length, and the coast's end. -/
theorem runsAndCoastsEnd : Obligations.RunsAndCoastsEnd := by
  unfold Obligations.RunsAndCoastsEnd
  refine ⟨?runs, ?coasts⟩
  case runs =>
    intro s p run state u seconds endless
    have length : runLength (s.blocks.pocket p).tuning (s.blocks.pocket p).drum = if endless then none else some seconds :=
      runLength_eq ..
    refine ⟨fun ends due => ?_, fun lasts => ?_⟩
    · rw [if_neg ends] at length
      refine State.settlesTo_of_when run rfl ?_ (Blocks.judgeRunEnd_of_due state length due)
        (s.blocks.judgeRunEnd_sameLists p)
      rw [length, state]
      exact decide_eq_true due
    · rw [if_pos lasts] at length
      change Host.Outcome.next (s.onBlocks _) = _
      rw [State.onBlocks_of_running s run, State.modBlocks, length, Bool.and_false]
      rfl
  case coasts =>
    intro s p run u state confirmed passed
    refine State.settlesTo_of_when run rfl ?_ (Blocks.judgeCoast_of_due state confirmed passed)
      (s.blocks.judgeCoast_sameLists p)
    rw [show (s.blocks.pocket p).drum.state = _ from state, show (s.blocks.pocket p).drum.confirmed = _ from confirmed]
    exact decide_eq_true passed

end Sys2Proof.Machine
end

section
/-! SUPPORT. Tach pulses: what they measure, and what they are judged for (R53, R54, R58, R61, R62). -/

namespace Sys2Proof.Machine

namespace Blocks

variable {b : Blocks} {p : Pocket}

/-! ## A sampled pin, and the blocks it leaves -/

theorem setContacts_congr (c : Contacts) {d : Blocks} (same : b = d) :
    ({ b with contacts := c } : Blocks) = { d with contacts := c } := by rw [same]

theorem modPocket_setContacts (c : Contacts) (f : PocketUnit → PocketUnit) :
    ({ b with contacts := c } : Blocks).modPocket p f = { b.modPocket p f with contacts := c } := by cases p <;> rfl

theorem modDrum_setContacts (c : Contacts) (f : Drum → Drum) :
    ({ b with contacts := c } : Blocks).modDrum p f = { b.modDrum p f with contacts := c } := modPocket_setContacts ..

theorem raiseCause_setContacts (c : Contacts) (k : Cause) :
    ({ b with contacts := c } : Blocks).raiseCause k = { b.raiseCause k with contacts := c } := by
  have entry : ({ b with contacts := c } : Blocks).entryFor k = b.entryFor k := by cases k <;> rfl
  unfold raiseCause makePending
  rw [entry]
  split
  · rfl
  · split <;> rfl

theorem raiseCause_contacts (k : Cause) : (b.raiseCause k).contacts = b.contacts := by
  unfold raiseCause makePending
  split
  · rfl
  · split <;> rfl

theorem raiseCause_lockoutConditions (k : Cause) : (b.raiseCause k).lockoutConditions p = b.lockoutConditions p := by
  unfold raiseCause makePending
  split
  · rfl
  · split <;> cases p <;> rfl

/-- The lockout conditions are those of the exhaust channel and of the cutout input's level. -/
theorem lockoutConditions_setContacts {c : Contacts} (levels : ∀ i, (c.inputs.getD i .reset).level = (b.input i).level) :
    ({ b with contacts := c } : Blocks).lockoutConditions p = b.lockoutConditions p := by
  have level : ({ b with contacts := c } : Blocks).functionLevel (.hilimit p) = b.functionLevel (.hilimit p) :=
    congrArg (fun f => (carrier b.working (.hilimit p)).map f) (funext levels)
  unfold lockoutConditions cutoutOpen
  rw [level]
  cases p <;> rfl

end Blocks

theorem pulseLevel_eq (row : List Byte) (i : Nat) :
    pulseLevel row i = ((!rowEdgeInactive row i) != rowActiveLow row i) := by
  unfold pulseLevel
  cases rowEdgeInactive row i <;> cases rowActiveLow row i <;> rfl

theorem Blocks.samplePulse_level (b : Blocks) (i : Nat) (high : Bool) (j : Nat) :
    ((b.samplePulse i high).contacts.inputs.getD j .reset).level = (b.input j).level :=
  b.modInput_level i j (fun u => { u with pin := high, previous := !high, stability := 0 }) fun _ => rfl

/-- A pulse that is due, and what the drum drive makes of it whatever the pins have come to. -/
theorem State.pulseSettles_of {s : State} {p : Pocket} {i : Nat} {before : Blocks} (run : s.phase = .running)
    (carried : carrier s.blocks.working (.tach p) = some i) (time : s.PulseTime p)
    (stands : before.contacts = s.blocks.contacts)
    (same : ∀ c : Contacts, (∀ j, (c.inputs.getD j .reset).level = (s.blocks.input j).level) →
      ({ s.blocks with contacts := c } : Blocks).pulse p = { before with contacts := c }) :
    s.PulseSettles p i before := by
  have due : s.blocks.pulseDue p = true := by
    obtain ⟨second, apart⟩ := time
    refine Bool.and_eq_true_iff.2 ⟨decide_eq_true second, ?_⟩
    cases ref : (s.blocks.pocket p).drum.reference with
    | none => rfl
    | some ref => exact decide_eq_true (apart _ ‹_›)
  unfold State.PulseSettles
  rw [stands]
  dsimp only
  rw [← pulseLevel_eq]
  refine State.settlesAs_of_settle (changed := (s.blocks.samplePulse i (pulseLevel s.blocks.working i)).pulse p) ?_
    (same _ (s.blocks.samplePulse_level i _)) ?_
  · change Host.Outcome.next _ = _
    rw [State.whileRunning, if_pos run, carried]
    dsimp only
    rw [if_pos due]
    rfl
  · exact Blocks.SameLists.trans ⟨fun st => by cases st <;> rfl, rfl, rfl⟩ (Blocks.pulse_frame (P := fun _ => False) _ p).sameLists

/-! ## What a pulse measures (R53, R54) -/

theorem Drum.pulse_of_noReference {d : Drum} (none : d.reference = none) (now : Nat) :
    d.pulse now = { d with reference := some now, silence := 0, confirmed := false } := by
  unfold Drum.pulse
  rw [none]

theorem Drum.pulse_of_reference {d : Drum} {ref : Nat} (seen : d.reference = some ref) (now : Nat) :
    d.pulse now =
      { d with
        reference := some now, silence := 0, confirmed := false, period := max 1 (min 65535 ((now - ref) / 100))
        speed := min 255 (600000 / max 1 (min 65535 ((now - ref) / 100))) } := by
  unfold Drum.pulse speedOf measuredPeriod
  have clamped : clampNat 1 65535 ((now - ref) / 100) = max 1 (min 65535 ((now - ref) / 100)) := clampNat_eq (by decide) _
  rw [seen, ← clamped]

namespace Blocks

variable {b : Blocks} {p : Pocket}

theorem pulse_of_noReference (none : (b.pocket p).drum.reference = none) :
    b.pulse p = b.modDrum p (Drum.pulse b.clock) := by
  unfold pulse
  rw [none]
  rfl

theorem pulse_of_reference {ref : Nat} (seen : (b.pocket p).drum.reference = some ref) :
    b.pulse p = (b.modDrum p (Drum.pulse b.clock)).judgePulse p := by
  unfold pulse
  rw [seen]
  rfl

/-- A pulse is not judged with the motor off, without a reference, or in a spin-up that is still slow. -/
theorem pulse_of_unjudged
    (unjudged : ∀ ref, (b.pocket p).drum.reference = some ref →
      (b.pocket p).drum.state = .stopped ∨ (b.pocket p).drum.state = .coast ∨
        ((b.pocket p).drum.state = .spinup ∧
          min 255 (600000 / max 1 (min 65535 ((b.clock - ref) / 100))) < (b.pocket p).tuning.speedLow)) :
    b.pulse p = b.modDrum p (Drum.pulse b.clock) := by
  cases seen : (b.pocket p).drum.reference with
  | none => exact pulse_of_noReference seen
  | some ref =>
    rw [pulse_of_reference seen, judgePulse, modDrum_pocket, Drum.pulse_of_reference seen]
    obtain state | state | ⟨state, slow⟩ := unjudged ref seen
    · simp only [state]
    · simp only [state]
    · simp only [state]
      exact if_neg (by omega)

end Blocks

/-- Settles O36: the pulse with and without a reference, where none judges it. -/
theorem pulseSetsPeriodAndSpeed : Obligations.PulseSetsPeriodAndSpeed := by
  intro s p run d period speed
  refine ⟨fun i carried time unjudged => ?_, fun not => ?_⟩
  · refine State.pulseSettles_of run carried time (Blocks.modDrum_contacts ..) fun c levels => ?_
    have same : ({ s.blocks with contacts := c } : Blocks).pocket p = s.blocks.pocket p := by cases p <;> rfl
    rw [Blocks.pulse_of_unjudged (by rwa [same]), Blocks.modDrum_setContacts]
    refine Blocks.setContacts_congr c (Blocks.modDrum_congr ?_)
    cases seen : (s.blocks.pocket p).drum.reference with
    | none => exact Drum.pulse_of_noReference seen _
    | some ref => exact Drum.pulse_of_reference seen _
  · change Host.Outcome.next _ = _
    rw [State.whileRunning, if_pos run]
    congr 1
    split
    · rename_i i carried
      refine if_neg fun due => ?_
      obtain ⟨second, apart⟩ := Bool.and_eq_true_iff.1 due
      refine not.elim (fun none => by simp [none] at carried) fun early => early ⟨of_decide_eq_true second, fun ref seen => ?_⟩
      rw [seen] at apart
      exact of_decide_eq_true apart
    · rfl

namespace Blocks

variable {b : Blocks} {p : Pocket} {ref : Nat}

/-- A pulse in SPINUP at SPEED_LOW or more. -/
theorem pulse_of_fast (state : (b.pocket p).drum.state = .spinup) (seen : (b.pocket p).drum.reference = some ref)
    (fast : (b.pocket p).tuning.speedLow ≤ min 255 (600000 / max 1 (min 65535 ((b.clock - ref) / 100)))) :
    b.pulse p = (b.modDrum p (Drum.pulse b.clock)).enterRun p := by
  rw [pulse_of_reference seen, judgePulse, modDrum_pocket, Drum.pulse_of_reference seen]
  simp only [state]
  exact if_pos fast

theorem pulse_of_run (state : (b.pocket p).drum.state = .run) (seen : (b.pocket p).drum.reference = some ref) :
    b.pulse p = (b.modDrum p (Drum.pulse b.clock)).judgeDrag p := by
  rw [pulse_of_reference seen, judgePulse, modDrum_pocket, Drum.pulse_of_reference seen]
  simp only [state]

end Blocks

/-! ## RUN entered, and the report of it (R30, R31, R58, R72) -/

/-- A pocket with the time limit judged, and no lockout condition at the entry it may lead to (R31). -/
def PocketUnit.judgedLimit (u : PocketUnit) : Cycle :=
  if u.limitReached then
    match u.cycle.state with
    | .drying =>
      { u.cycle with
        state := .cooling, startTarget := none, endFlag := some (if u.tuning.mode = 1 then .timedEnd else .limitReached) }
    | .extending => { u.cycle with state := .cooling, startTarget := none, endFlag := some .confirmedDry }
    | _ => u.cycle
  else u.cycle

/-- A pocket that the drum drive has reported RUN to (R30). -/
def PocketUnit.toldOfRun (u : PocketUnit) : Cycle :=
  if u.cycle.state = .starting then
    PocketUnit.judgedLimit
      { u with cycle := { u.cycle with state := u.cycle.startTarget.getD .drying, startTarget := none } }
  else u.cycle

/-- A drum that has entered RUN; a run of length 0 ends at once (R58, R72). -/
def Drum.inRun (t : Tuning) (d : Drum) : Drum :=
  let d := { d with state := .run, runTimer := 0, drag := 0 }
  if runLength t d = some 0 then d.endRun t else d

namespace Blocks

variable {b : Blocks} {p : Pocket}

theorem judgeTimeLimit_eq (free : b.lockoutConditions p = []) :
    b.judgeTimeLimit p = b.modPocket p fun u => { u with cycle := u.judgedLimit } := by
  have one : b.OneCause p := .inr (by simp [free])
  have cause : b.causeAtEntry p = (b.pocket p).cycle.lockout := by simp [causeAtEntry, free]
  have stands : (b.pocket p).judgedLimit = (b.pocket p).cycle → b = b.modPocket p fun u => { u with cycle := u.judgedLimit } :=
    fun same => (b.modPocket_id p).symm.trans (modPocket_congr (by rw [same]))
  unfold judgeTimeLimit
  dsimp only
  split
  case isFalse early => exact stands (if_neg early)
  case isTrue reached =>
    have judged : (b.pocket p).judgedLimit = _ := if_pos reached
    split <;> rename_i state
    · rw [enterCooling_eq one, modCycle, cause]
      exact modPocket_congr (by rw [judged, state]; rfl)
    · rw [enterCooling_eq one, modCycle, cause]
      exact modPocket_congr (by rw [judged, state]; rfl)
    · refine stands (judged.trans ?_)
      split
      · contradiction
      · contradiction
      · rfl

theorem runReport_eq (free : b.lockoutConditions p = []) :
    b.runReport p = b.modPocket p fun u => { u with cycle := u.toldOfRun } := by
  have one : b.OneCause p := .inr (by simp [free])
  unfold runReport
  dsimp only
  split
  case isFalse other =>
    refine (b.modPocket_id p).symm.trans (modPocket_congr ?_)
    rw [PocketUnit.toldOfRun, if_neg other]
  case isTrue starting =>
    unfold modCycle
    rw [entryLockout_modPocket one ⟨rfl, rfl⟩, free]
    dsimp only [List.head?, PocketUnit.entered]
    rw [judgeTimeLimit_eq (by rw [modPocket_lockoutConditions rfl]; exact free), modPocket_modPocket]
    refine modPocket_congr ?_
    rw [PocketUnit.toldOfRun, if_pos starting]

theorem judgeRunEnd_of_begun (state : (b.pocket p).drum.state = .run) (begun : (b.pocket p).drum.runTimer = 0) :
    b.judgeRunEnd p =
      b.modDrum p fun d => if runLength (b.pocket p).tuning d = some 0 then d.endRun (b.pocket p).tuning else d := by
  unfold judgeRunEnd
  dsimp only
  rw [state, begun]
  have stands : ∀ {d : Drum}, (b.pocket p).drum = d → b = b.modDrum p fun _ => d := fun same =>
    (b.modPocket_id p).symm.trans (modPocket_congr (by rw [← same]))
  cases length : runLength (b.pocket p).tuning (b.pocket p).drum with
  | none =>
    refine (stands rfl).trans (modDrum_congr ?_)
    rw [length, if_neg (by simp)]
  | some seconds =>
    dsimp only
    split
    · refine modDrum_congr ?_
      rw [length, if_pos (by congr 1; omega)]
    · refine (stands rfl).trans (modDrum_congr ?_)
      rw [length, if_neg (by rintro h; cases h; omega)]

theorem enterRun_eq (free : b.lockoutConditions p = []) :
    b.enterRun p =
      b.modPocket p fun u =>
        { u with
          drum := u.drum.inRun u.tuning
          cycle := if u.drum.request = .run then u.toldOfRun else u.cycle } := by
  let runs : Drum → Drum := fun d => { d with state := .run, runTimer := 0, drag := 0 }
  have told : (if ((b.modDrum p runs).pocket p).drum.request = .run then (b.modDrum p runs).runReport p
      else b.modDrum p runs) =
      b.modPocket p fun u =>
        { u with drum := runs u.drum, cycle := if u.drum.request = .run then u.toldOfRun else u.cycle } := by
    rw [modDrum_pocket]
    by_cases asked : (b.pocket p).drum.request = .run
    · rw [if_pos asked, modDrum, runReport_eq (by rw [modPocket_lockoutConditions rfl]; exact free), modPocket_modPocket]
      refine modPocket_congr ?_
      rw [if_pos asked]
      rfl
    · rw [if_neg asked]
      refine modPocket_congr ?_
      rw [if_neg asked]
  unfold enterRun
  refine (congrArg (judgeRunEnd · p) told).trans ?_
  rw [judgeRunEnd_of_begun (by rw [modPocket_pocket]) (by rw [modPocket_pocket]), modDrum, modPocket_modPocket]
  refine modPocket_congr ?_
  rw [modPocket_pocket]
  rfl

end Blocks

/-- Only a cycle run can have the length 0 (R59, R72). -/
theorem Drum.inRun_eq (t : Tuning) (d : Drum) :
    let running := { d with state := .run, runTimer := 0, drag := 0 }
    d.inRun t =
      if runLength t running = some 0 then
        { running with
          state := .coast, coastTimer := 0, silence := 0, nextDir := if t.revRun = 0 then .fwd else d.dir.flip }
      else running := by
  intro running
  unfold Drum.inRun
  refine if_ctx_congr Iff.rfl (fun zero => ?_) fun _ => rfl
  have asked : d.request ≠ .burst := by
    intro burst
    simp [running, runLength, burst] at zero
  simp [running, Drum.endRun, Drum.toCoast, flippedNext, asked]

/-! ## Drag and tangles (R61, R62) -/

/-- A pocket with the tangle event at its drum (R61, R62). -/
def PocketUnit.tangled (u : PocketUnit) : PocketUnit :=
  { u with drum := { u.drum.endRun u.tuning with tangles := min 4 (u.drum.tangles + 1), drag := 0 } }

namespace Blocks

variable {b : Blocks} {p : Pocket}

theorem judgeDrag_of_fast (fast : (b.pocket p).tuning.speedLow ≤ (b.pocket p).drum.speed) :
    b.judgeDrag p = b.modDrum p fun d => { d with drag := 0 } := if_neg (by omega)

theorem judgeDrag_of_slow (slow : (b.pocket p).drum.speed < (b.pocket p).tuning.speedLow)
    (few : (b.pocket p).drum.drag < 2) : b.judgeDrag p = b.modDrum p fun d => { d with drag := d.drag + 1 } :=
  (if_pos slow).trans (if_neg (by omega))

theorem judgeDrag_of_third (slow : (b.pocket p).drum.speed < (b.pocket p).tuning.speedLow)
    (third : 2 ≤ (b.pocket p).drum.drag) : b.judgeDrag p = b.tangleEvent p := (if_pos slow).trans (if_pos (by omega))

theorem tangleEvent_of_few (few : (b.pocket p).drum.tangles < 3) :
    b.tangleEvent p = b.modPocket p PocketUnit.tangled := by
  unfold tangleEvent
  dsimp only
  rw [modPocket_pocket]
  exact if_neg (by dsimp only; omega)

theorem tangleEvent_of_fourth (fourth : 3 ≤ (b.pocket p).drum.tangles) :
    b.tangleEvent p = ((b.modPocket p PocketUnit.tangled).raiseCause (.tangle p)).tangleReport p := by
  unfold tangleEvent
  dsimp only
  rw [modPocket_pocket]
  exact if_pos (by dsimp only; omega)

theorem tangleReport_of_other (drying : (b.pocket p).cycle.state ≠ .drying)
    (extending : (b.pocket p).cycle.state ≠ .extending) (cooling : (b.pocket p).cycle.state ≠ .cooling) :
    b.tangleReport p = b := by
  unfold tangleReport
  split <;> first | contradiction | rfl

theorem tangleReport_of_active
    (active : (b.pocket p).cycle.state = .drying ∨ (b.pocket p).cycle.state = .extending ∨ (b.pocket p).cycle.state = .cooling) :
    b.tangleReport p = b.pausePocket p := by
  unfold tangleReport
  obtain state | state | state := active <;> rw [state]

end Blocks

/-- Settles O37: the fast pulse in SPINUP, and the pulse in RUN by speed, streak and tangles. -/
theorem judgedPulsesReachRunOrTangle : Obligations.JudgedPulsesReachRunOrTangle := by
  unfold Obligations.JudgedPulsesReachRunOrTangle
  refine ⟨?runs, ?tangles⟩
  case runs =>
    intro s p ref i run carried time u period speed drum ended limited cycle state seen fast free
    refine State.pulseSettles_of run carried time (Blocks.modPocket_contacts ..) fun c levels => ?_
    have same : ({ s.blocks with contacts := c } : Blocks).pocket p = s.blocks.pocket p := by cases p <;> rfl
    rw [Blocks.pulse_of_fast (by rw [same]; exact state) (by rw [same]; exact seen) (by rw [same]; exact fast), Blocks.modDrum,
      Blocks.enterRun_eq (by rw [Blocks.modPocket_lockoutConditions rfl, Blocks.lockoutConditions_setContacts levels]; exact free),
      Blocks.modPocket_modPocket, Blocks.modPocket_setContacts]
    refine Blocks.setContacts_congr c (Blocks.modPocket_congr ?_)
    have ends : (Drum.pulse s.blocks.clock u.drum).inRun u.tuning = ended := by
      rw [Drum.pulse_of_reference seen, Drum.inRun_eq]
    have told : u.drum.request = .run → ∀ d, PocketUnit.toldOfRun { u with drum := d } = cycle := by
      intro asked d
      by_cases starting : u.cycle.state = .starting
      · have isTarget : cycle = _ := if_pos ⟨asked, starting⟩
        have limit : ∀ k t, PocketUnit.limitReached
            { u with drum := d, cycle := { u.cycle with state := k, startTarget := t } } = decide limited := fun _ _ => rfl
        rw [isTarget, PocketUnit.toldOfRun, if_pos starting, PocketUnit.judgedLimit, limit]
        dsimp only
        by_cases reached : limited
        · rw [decide_eq_true reached]
          cases u.cycle.startTarget.getD .drying <;> simp [reached]
        · rw [decide_eq_false reached]
          cases u.cycle.startTarget.getD .drying <;> simp [reached]
      · have stands : cycle = _ := if_neg fun h => starting h.2
        rw [stands, PocketUnit.toldOfRun, if_neg starting]
    have request : (Drum.pulse s.blocks.clock u.drum).request = u.drum.request := by rw [Drum.pulse_of_reference seen]
    change ({ u with
      drum := (Drum.pulse s.blocks.clock u.drum).inRun u.tuning
      cycle :=
        if (Drum.pulse s.blocks.clock u.drum).request = .run then
          PocketUnit.toldOfRun { u with drum := Drum.pulse s.blocks.clock u.drum }
        else u.cycle } : PocketUnit) = { u with drum := ended, cycle := cycle }
    rw [ends, request]
    by_cases asked : u.drum.request = .run
    · rw [if_pos asked, told asked]
    · have stands : cycle = u.cycle := if_neg fun h => asked h.1
      rw [if_neg asked, stands]
  case tangles =>
    intro s p ref i run carried time u period speed drum tangled state seen
    have judges : ∀ {before : Blocks}, before.contacts = s.blocks.contacts →
        (∀ c : Contacts, (∀ j, (c.inputs.getD j .reset).level = (s.blocks.input j).level) →
          ((({ s.blocks with contacts := c } : Blocks).modDrum p fun _ => drum).judgeDrag p) = { before with contacts := c }) →
        s.PulseSettles p i before := fun stands judged =>
      State.pulseSettles_of run carried time stands fun c levels => by
        have same : ({ s.blocks with contacts := c } : Blocks).pocket p = s.blocks.pocket p := by cases p <;> rfl
        rw [Blocks.pulse_of_run (by rw [same]; exact state) (by rw [same]; exact seen), ← judged c levels]
        refine congrArg (Blocks.judgeDrag · p) (Blocks.modDrum_congr ?_)
        rw [same]
        exact Drum.pulse_of_reference seen _
    have unit : ∀ c : Contacts, (({ s.blocks with contacts := c } : Blocks).modDrum p fun _ => drum).pocket p =
        { u with drum := drum } := fun c => by cases p <;> rfl
    have tangles : ∀ c : Contacts, (({ s.blocks with contacts := c } : Blocks).modDrum p fun _ => drum).modPocket p
        PocketUnit.tangled = { tangled with contacts := c } := fun c => by
      rw [Blocks.modDrum, Blocks.modPocket_modPocket, Blocks.modPocket_setContacts]
      exact Blocks.setContacts_congr c (Blocks.modPocket_congr rfl)
    have raises : 3 ≤ u.drum.tangles → ∀ c : Contacts, (({ s.blocks with contacts := c } : Blocks).modDrum p fun _ =>
        drum).tangleEvent p = ({ tangled.raiseCause (.tangle p) with contacts := c } : Blocks).tangleReport p :=
      fun fourth c => by
        rw [Blocks.tangleEvent_of_fourth (by rw [unit]; exact fourth), tangles, Blocks.raiseCause_setContacts]
    have contacts : (tangled.raiseCause (.tangle p)).contacts = s.blocks.contacts := by
      rw [Blocks.raiseCause_contacts]
      exact Blocks.modDrum_contacts ..
    have cycle : ∀ c : Contacts, (({ tangled.raiseCause (.tangle p) with contacts := c } : Blocks).pocket p).cycle = u.cycle := by
      intro c
      have same : ({ tangled.raiseCause (.tangle p) with contacts := c } : Blocks).pocket p =
        (tangled.raiseCause (.tangle p)).pocket p := by cases p <;> rfl
      rw [same, Blocks.raiseCause_pocket, Blocks.modDrum_pocket]
    refine ⟨fun fast => ?_, fun slow few => ?_, fun slow third few => ?_, fun slow third fourth drying extending cooling => ?_,
      ?_⟩
    · refine judges (Blocks.modDrum_contacts ..) fun c levels => ?_
      rw [Blocks.judgeDrag_of_fast (by rw [unit]; exact fast), Blocks.modDrum_modDrum, Blocks.modDrum_setContacts]
    · refine judges (Blocks.modDrum_contacts ..) fun c levels => ?_
      rw [Blocks.judgeDrag_of_slow (by rw [unit]; exact slow) (by rw [unit]; exact few), Blocks.modDrum_modDrum,
        Blocks.modDrum_setContacts]
      exact Blocks.setContacts_congr c (Blocks.modDrum_congr rfl)
    · refine judges (Blocks.modDrum_contacts ..) fun c levels => ?_
      rw [Blocks.judgeDrag_of_third (by rw [unit]; exact slow) (by rw [unit]; exact third),
        Blocks.tangleEvent_of_few (by rw [unit]; exact few), tangles]
    · refine judges contacts fun c levels => ?_
      rw [Blocks.judgeDrag_of_third (by rw [unit]; exact slow) (by rw [unit]; exact third), raises fourth,
        Blocks.tangleReport_of_other (by rwa [cycle]) (by rwa [cycle]) (by rwa [cycle])]
    · intro slow third fourth active one cause
      refine judges ((Blocks.modPocket_contacts ..).trans contacts) fun c levels => ?_
      have conditions : ({ tangled.raiseCause (.tangle p) with contacts := c } : Blocks).lockoutConditions p =
          s.blocks.lockoutConditions p := by
        rw [Blocks.lockoutConditions_setContacts, Blocks.raiseCause_lockoutConditions]
        · exact Blocks.modPocket_lockoutConditions rfl
        · intro j
          rw [levels, Blocks.input, Blocks.input, contacts]
      have sameCause : ({ tangled.raiseCause (.tangle p) with contacts := c } : Blocks).causeAtEntry p = cause := by
        rw [Blocks.causeAtEntry, conditions, cycle]
        rfl
      rw [Blocks.judgeDrag_of_third (by rw [unit]; exact slow) (by rw [unit]; exact third), raises fourth,
        Blocks.tangleReport_of_active (by rwa [cycle]),
        Blocks.pausePocket_eq (by rw [Blocks.OneCause, conditions, cycle]; exact one), sameCause, Blocks.modPocket_setContacts]
      refine Blocks.setContacts_congr c (Blocks.modPocket_congr ?_)
      have left : u.cycle.resumeState = some u.cycle.state := if_neg (by obtain state | state | state := active <;> simp [state])
      have cycle : (tangled.pocket p).cycle = u.cycle := by rw [Blocks.modDrum_pocket]
      have coasts : (tangled.pocket p).drum.state = .coast := by rw [Blocks.modDrum_pocket]
      rw [Blocks.raiseCause_pocket]
      simp only [cycle, left, Drum.askedToStop, coasts, reduceCtorEq, or_self, if_false]

end Sys2Proof.Machine
end

section
/-! SUPPORT. The input map, the functions as they stand by it, and the debounced changes handed to their owners (R39, R68, R81,
R138 to R145). -/

namespace Sys2Proof.Machine

/-! ## The input map (R141, R182) -/

/-- The codes that name a function of one carrier (R182). -/
def functionCodes : List (Nat × InputFunction) :=
  [(1, .door .a), (2, .door .b), (3, .lint .a), (4, .lint .b), (5, .hilimit .a), (6, .hilimit .b), (7, .belt .a),
   (8, .belt .b), (9, .airflow .a), (10, .airflow .b), (11, .tach .a), (12, .tach .b)]

/-- Input i is the lowest-numbered one with code k (R141). -/
def Carries (row : List Byte) (i k : Nat) : Prop :=
  i < 12 ∧ (row.getD (0x36 + i) 0).toNat % 16 = k ∧ ∀ n, n < i → (row.getD (0x36 + n) 0).toNat % 16 ≠ k

theorem functionOfCode_iff {k : Nat} {f : InputFunction} (code : (k, f) ∈ functionCodes) {c : Nat} (low : c < 16) :
    functionOfCode c = f ↔ c = k := by
  have all : ∀ kf ∈ functionCodes, ∀ c < 16, functionOfCode c = kf.2 ↔ c = kf.1 := by decide
  exact all _ code c low

theorem rowFunction_iff {k : Nat} {f : InputFunction} (code : (k, f) ∈ functionCodes) (row : List Byte) (i : Nat) :
    rowFunction row i = f ↔ (row.getD (0x36 + i) 0).toNat % 16 = k :=
  functionOfCode_iff code (Nat.mod_lt _ (by decide))

theorem rowFunction_chord_iff (row : List Byte) (i : Nat) :
    rowFunction row i = .chord ↔ (row.getD (0x36 + i) 0).toNat % 16 = 13 := by
  have all : ∀ c < 16, functionOfCode c = .chord ↔ c = 13 := by decide
  exact all _ (Nat.mod_lt _ (by decide))

theorem carrier_iff_carries {k : Nat} {f : InputFunction} (code : (k, f) ∈ functionCodes) (row : List Byte) (i : Nat) :
    carrier row f = some i ↔ Carries row i k := by
  simp only [carrier_eq_some, rowFunction_iff code, ne_eq, Carries]

theorem carrier_eq_none {row : List Byte} {f : InputFunction} :
    carrier row f = none ↔ ∀ i, i < 12 → rowFunction row i ≠ f := by
  constructor
  · intro none i low maps
    obtain ⟨j, -, found⟩ := carrier_isSome low maps
    simp [none] at found
  · intro unmapped
    by_contra found
    obtain ⟨i, found⟩ := Option.ne_none_iff_exists'.1 found
    obtain ⟨low, maps, -⟩ := carrier_eq_some.1 found
    exact unmapped i low maps

/-- An input acts as a function of one carrier exactly as its carrier (R141). -/
theorem actingFunction_iff {f : InputFunction} (used : f ≠ .unused) (single : f ≠ .chord) (row : List Byte) (i : Nat) :
    actingFunction row i = f ↔ carrier row f = some i := by
  unfold actingFunction
  constructor
  · intro acts
    split at acts
    · exact absurd acts.symm used
    · exact absurd acts.symm single
    · split at acts
      case isTrue carried => rwa [← acts]
      case isFalse => exact absurd acts.symm used
  · intro carried
    obtain ⟨-, maps, -⟩ := carrier_eq_some.1 carried
    rw [maps]
    split
    · contradiction
    · contradiction
    · exact if_pos carried

theorem actingFunction_chord_iff (row : List Byte) (i : Nat) :
    actingFunction row i = .chord ↔ rowFunction row i = .chord := by
  unfold actingFunction
  split
  · simp_all
  · simp_all
  · rename_i other
    constructor
    · intro acts
      split at acts
      · exact absurd acts other
      · cases acts
    · intro maps
      exact absurd maps other

theorem logicalLevel_eq (row : List Byte) (i : Nat) (high : Bool) :
    logicalLevel row i high = if (row.getD (0x36 + i) 0).getLsbD 4 then !high else high := by
  unfold logicalLevel rowActiveLow
  cases high <;> cases (row.getD (0x36 + i) 0).getLsbD 4 <;> rfl

namespace Blocks

variable {b : Blocks} {k : Nat} {f : InputFunction}

/-- A function stands as the debounced level of its carrier (R140). -/
theorem functionLevel_eq_some (code : (k, f) ∈ functionCodes) {l : Level} :
    b.functionLevel f = some l ↔ ∃ i, Carries b.working i k ∧ (b.input i).level = l := by
  simp only [functionLevel, Option.map_eq_some_iff, carrier_iff_carries code]

theorem functionLevel_eq_none (code : (k, f) ∈ functionCodes) :
    b.functionLevel f = none ↔ ∀ i, i < 12 → (b.working.getD (0x36 + i) 0).toNat % 16 ≠ k := by
  simp only [functionLevel, Option.map_eq_none_iff, carrier_eq_none, ne_eq, rowFunction_iff code]

end Blocks

/-! ## A debounced change (R138 to R140) -/

/-- The blocks with an input's level debounced, before the change is handed on. -/
def Blocks.settledInput (b : Blocks) (i : Nat) (high : Bool) : Blocks :=
  b.modInput i fun u =>
    { u with pin := high, previous := high, stability := 200, level := levelOf (logicalLevel b.working i high) }

section

variable {s : State} {i : Fin 12} {high : Bool}

theorem exec_debouncedChange (run : s.phase = .running) (time : 20100 ≤ s.blocks.clock) :
    exec (.debouncedChange i high) s =
      .next { s with blocks := s.blocks.debounce i.val high, pins := s.pins.setContact i high } := by
  change Host.Outcome.next _ = _
  have due : s.blocks.settlingDue = true := decide_eq_true time
  rw [State.whileRunning, if_pos run, if_pos due]
  rfl

/-- A level that changes is handed to the owner of the input's function, and the event ends. -/
theorem settlesAs_debounced (run : s.phase = .running) (time : 20100 ≤ s.blocks.clock)
    (differs : (s.blocks.input i).level ≠ levelOf (logicalLevel s.blocks.working i high)) {before : Blocks}
    (handed : (s.blocks.settledInput i high).handChange (actingFunction s.blocks.working i) (s.blocks.input i).level
      (levelOf (logicalLevel s.blocks.working i high)) = before) :
    s.SettlesAs (.debouncedChange i high) (fun b => { s with blocks := b, pins := s.pins.setContact i high }) before := by
  have debounced : s.blocks.debounce i high = before.settle := by
    rw [← handed]
    exact if_neg differs
  refine ⟨by rw [exec_debouncedChange run time, debounced], fun agree => Blocks.settle_settled _ ?_⟩
  rw [← handed]
  exact ((s.blocks.setContacts_keeps (P := fun _ => False) _).trans (Blocks.handChange_keeps _ _ _ _)).lists agree

end

/-! ## Doors and lint filters (R39) -/

namespace Blocks

variable {b : Blocks} {p : Pocket}

theorem handChange_door_opens : b.handChange (.door p) .active .inactive = b.doorOpens p := rfl

theorem handChange_lint_opens : b.handChange (.lint p) .active .inactive = b.lintRemoved p := rfl

theorem handChange_door_of_still {was now : Level}
    (still : ¬(was = .active ∧ now = .inactive) ∨ b.doorOpens p = b) : b.handChange (.door p) was now = b := by
  unfold handChange
  obtain shut | still := still
  · exact if_neg shut
  · simp only [still, ite_self]

theorem handChange_lint_of_still {was now : Level}
    (still : ¬(was = .active ∧ now = .inactive) ∨ b.lintRemoved p = b) : b.handChange (.lint p) was now = b := by
  unfold handChange
  obtain shut | still := still
  · exact if_neg shut
  · simp only [still, ite_self]

theorem handChange_of_opens {f : InputFunction} (mapped : f = .door p ∨ f = .lint p)
    (active : (b.pocket p).cycle.state = .starting ∨ (b.pocket p).cycle.state = .drying ∨
      (b.pocket p).cycle.state = .extending ∨ (b.pocket p).cycle.state = .cooling) :
    b.handChange f .active .inactive = b.pausePocket p := by
  obtain rfl | rfl := mapped
  · rw [handChange_door_opens, doorOpens]
    obtain state | state | state | state := active <;> rw [state]
  · rw [handChange_lint_opens, lintRemoved]
    obtain state | state | state | state := active <;> rw [state]

theorem doorOpens_of_done (done : (b.pocket p).cycle.state = .creaseGuard ∨ (b.pocket p).cycle.state = .done) :
    b.doorOpens p = b.enterIdle p := by
  unfold doorOpens
  obtain state | state := done <;> rw [state]

theorem doorOpens_of_rest
    (rest : (b.pocket p).cycle.state = .idle ∨ (b.pocket p).cycle.state = .paused ∨ (b.pocket p).cycle.state = .faulted ∨
      (b.pocket p).cycle.state = .held) : b.doorOpens p = b := by
  unfold doorOpens
  obtain state | state | state | state := rest <;> rw [state]

theorem lintRemoved_of_inactive (inactive : ¬(b.pocket p).cycle.state.isActive = true) : b.lintRemoved p = b := by
  unfold lintRemoved
  cases state : (b.pocket p).cycle.state <;> simp [state, CycleState.isActive] at inactive ⊢

end Blocks

/-- Settles O50: the change of a door or a lint filter by the level held, and the input map. -/
theorem doorsAndFiltersPauseThePocket : Obligations.DoorsAndFiltersPauseThePocket := by
  refine ⟨fun b p => ?_, fun s i high run early => ?_, fun s i high p run time => ?_⟩
  · intro code carries active functions
    refine ⟨fun k f mapped => ?_, fun i low => ?_, fun i high => logicalLevel_eq _ i high, ?_, ?_⟩
    · have mapped : (k, f) ∈ functionCodes := mapped
      have proper : ∀ kf ∈ functionCodes, kf.2 ≠ .unused ∧ kf.2 ≠ .chord := by decide
      obtain ⟨used, single⟩ := proper _ mapped
      have carried := carrier_iff_carries mapped b.working
      exact ⟨fun i _ => (actingFunction_iff used single b.working i).trans (carried i), carried⟩
    · exact (actingFunction_chord_iff b.working i).trans (rowFunction_chord_iff b.working i)
    · rw [Blocks.doorClosed, beq_iff_eq]
      exact Blocks.functionLevel_eq_some (by cases p <;> decide)
    · rw [Blocks.lintPresent, beq_iff_eq]
      exact Blocks.functionLevel_eq_some (by cases p <;> decide)
  · change Host.Outcome.next _ = _
    have due : s.blocks.settlingDue = false := decide_eq_false (by omega)
    rw [State.whileRunning, if_pos run, due]
    rfl
  · intro b u f now changed c active opens next answers cause
    have pocket : changed.pocket p = b.pocket p := by cases p <;> rfl
    have answered : ∀ {before : Blocks}, u.level ≠ now → changed.handChange f u.level now = before → answers before :=
      fun differs handed => settlesAs_debounced run time differs handed
    refine ⟨fun same => ?_, fun mapped open' isActive one => ?_, fun mapped open' done => ?_, fun differs other => ?_⟩
    · rw [exec_debouncedChange run time]
      exact congrArg (fun b => Host.Outcome.next (next b)) (if_pos same)
    · obtain ⟨was, isNow⟩ := open'
      refine answered (by simp [was, isNow]) ?_
      rw [was, isNow, Blocks.handChange_of_opens mapped (by rwa [pocket]), Blocks.pausePocket_eq one]
      refine Blocks.modPocket_congr ?_
      rw [pocket]
      rfl
    · obtain ⟨was, isNow⟩ := open'
      refine answered (by simp [was, isNow]) ?_
      have mapped : f = .door p := mapped
      rw [was, isNow, mapped, Blocks.handChange_door_opens, Blocks.doorOpens_of_done (by rwa [pocket]), Blocks.enterIdle_eq]
    · refine answered differs ?_
      have inactive : ¬active → ¬(changed.pocket p).cycle.state.isActive = true := by
        rw [pocket]
        exact mt CycleState.isActive_iff.1
      obtain ⟨door | lint, still⟩ | ⟨lint, idle⟩ | airflow | tach | unused := other
      · rw [door]
        exact Blocks.handChange_door_of_still (still.imp_right fun rest => Blocks.doorOpens_of_rest (by rwa [pocket]))
      · rw [lint]
        refine Blocks.handChange_lint_of_still (still.imp_right fun rest => ?_)
        refine Blocks.lintRemoved_of_inactive (inactive ?_)
        rintro (state | state | state | state) <;> simp [state] at rest
      · rw [lint]
        exact Blocks.handChange_lint_of_still (.inr (Blocks.lintRemoved_of_inactive (inactive idle)))
      · rw [airflow]
        rfl
      · rw [tach]
        rfl
      · rw [unused]
        rfl

/-! ## Cutouts, belts and the chord (R68, R81, R145) -/

theorem Blocks.chordActive_iff (b : Blocks) :
    b.chordActive = true ↔
      (∃ i, i < 12 ∧ rowFunction b.working i = .chord) ∧
        ∀ i, i < 12 → rowFunction b.working i = .chord → (b.input i).level = .active := by
  simp only [Blocks.chordActive, Bool.and_eq_true, List.any_eq_true, List.all_eq_true, List.mem_range, beq_iff_eq,
    Bool.or_eq_true, bne_iff_ne, ne_eq, ← imp_iff_not_or]

namespace Blocks

theorem present_pocket (b : Blocks) (k : Cause) (p : Pocket) : (b.present k).pocket p = b.pocket p := by
  unfold present
  rw [makePending_pocket]
  cases p <;> rfl

/-- A cutout that opens, by R41's table. -/
theorem handChange_cutout_opens (b : Blocks) (p : Pocket) :
    b.handChange (.hilimit p) .active .inactive =
      (b.present (.highLimit p)).modPocket p (PocketUnit.lockedOut .highLimit) := lockoutFault_eq _ p _

/-- A cutout that settles open only presents its cause (R140). -/
theorem handChange_cutout_settles (b : Blocks) (p : Pocket) {was : Level} (unsettled : was ≠ .active) :
    b.handChange (.hilimit p) was .inactive = b.present (.highLimit p) := if_neg unsettled

end Blocks

/-- Settles O51: the change by its function and the level held. -/
theorem cutoutBeltAndChordChangesAct : Obligations.CutoutBeltAndChordChangesAct := by
  refine ⟨fun b p => ?_, fun s i high p run time => ?_⟩
  · intro code carries stands ofPocket
    have level : ∀ {k f l}, (k, f) ∈ functionCodes → (b.functionLevel f = some l ↔ stands k l) :=
      fun code => Blocks.functionLevel_eq_some code
    have cutout : (ofPocket 5, InputFunction.hilimit p) ∈ functionCodes := by cases p <;> decide
    have belt : (ofPocket 7, InputFunction.belt p) ∈ functionCodes := by cases p <;> decide
    have airflow : (ofPocket 9, InputFunction.airflow p) ∈ functionCodes := by cases p <;> decide
    refine ⟨?_, ?_, ?_, ?_⟩
    · rw [Blocks.cutoutOpen, bne_iff_ne, ne_eq, level cutout]
    · rw [Blocks.beltBroken, beq_iff_eq, level belt]
    · rw [← level airflow, ← Blocks.functionLevel_eq_none airflow, Blocks.airflowHolds]
      cases b.functionLevel (.airflow p) <;> simp
    · rw [Blocks.chordActive_iff]
      simp only [rowFunction_chord_iff]
      rfl
  · intro b u f now changed c answers chord differs
    have pocket : changed.pocket p = b.pocket p := by cases p <;> rfl
    have cycle : ((changed.present (.highLimit p)).pocket p).cycle = c := by rw [Blocks.present_pocket, pocket]
    have answered : ∀ {before : Blocks}, changed.handChange f u.level now = before → answers before :=
      fun handed => settlesAs_debounced run time differs handed
    refine ⟨fun mapped isNow was none state => ?_, fun mapped isNow was none state => ?_, fun mapped isNow was none state => ?_,
      fun mapped isNow other => ?_, fun mapped isNow => ?_, fun mapped isNow on => ?_, fun mapped other => ?_, fun mapped => ?_⟩
    all_goals
      refine answered ?_
      rw [mapped]
    · rw [isNow, was, Blocks.handChange_cutout_opens]
      refine Blocks.modPocket_congr ?_
      obtain state | state | state := state <;> simp [PocketUnit.lockedOut, cycle, none, state]
    · rw [isNow, was, Blocks.handChange_cutout_opens]
      exact Blocks.modPocket_congr (by simp [PocketUnit.lockedOut, cycle, none, state])
    · rw [isNow, was, Blocks.handChange_cutout_opens]
      refine Blocks.modPocket_congr ?_
      obtain state | state := state <;> simp [PocketUnit.lockedOut, cycle, none, state]
    · rw [isNow]
      by_cases was : u.level = .active
      · rw [was, Blocks.handChange_cutout_opens]
        refine (Blocks.modPocket_congr (g := fun u => u) ?_).trans (Blocks.modPocket_id _ p)
        obtain unsettled | recorded | state | state | state | state := other
        · simp [was] at unsettled
        · simp [PocketUnit.lockedOut, cycle, recorded]
        all_goals simp [PocketUnit.lockedOut, cycle, state]
      · exact Blocks.handChange_cutout_settles _ p was
    · rw [isNow]; rfl
    · exact if_pos ⟨isNow, by rwa [pocket]⟩
    · refine if_neg ?_
      rw [pocket]
      rintro ⟨broken, on⟩
      obtain active | off := other
      · simp [active] at broken
      · simp [off] at on
    · rfl

end Sys2Proof.Machine
end

section
/-! SUPPORT. The service line's SYNC, errors and gap, and the commands that answer at once (R154, R159 to R163, R168). -/

namespace Sys2Proof.Machine

/-- An answer of a result that is not COLLIDED. -/
theorem State.completeCommand_eq {s : State} {r : CommandResult} (bytes : List Byte) :
    s.completeCommand r bytes = { s with service := s.service.answered r 0 bytes } := by
  cases r <;> rfl

theorem resultByte_eq (r : CommandResult) :
    resultByte r = match r with | .ok => 0 | .refused => 1 | .collided => 2 | .linkBusy => 3 | .timeout => 4 := by
  cases r <;> rfl

/-- Settles O54: the answer of each command. -/
theorem shortCommandsAnswerAtOnce : Obligations.ShortCommandsAnswerAtOnce := by
  refine ⟨fun s takes => ?_, fun s causes code => ?_⟩
  · intro r
    have code : resultByte s.service.lastResult = r := by
      simp only [r]
      cases s.service.lastResult <;> rfl
    change Host.Outcome.next _ = _
    rw [statusBytes, State.execute_of_takes takes, ← code]
    have option : byteOf s.blocks.optionState.code = if s.blocks.optionState = .valid then 0 else 1 := by
      cases s.blocks.optionState <;> rfl
    rw [← option]
    rfl
  · intro force
    refine ⟨fun takes => ?_, fun takes => ?_, fun takes unknown => ?_⟩
    · change Host.Outcome.next _ = _
      rw [forceAlertBytes, State.execute_of_takes takes, State.completeCommand_eq]
      rfl
    · change Host.Outcome.next _ = _
      rw [resetPartBytes, State.execute_of_takes takes, State.completeCommand_eq]
      rfl
    · change Host.Outcome.next _ = _
      have other : knownCode code = false := by
        simp [knownCode]; omega
      rw [other, if_neg Bool.false_ne_true, State.execute_of_takes takes, State.completeCommand_eq]
      rfl

/-! ## SYNC, line errors and the gap (R159, R160, R162) -/

/-- The state after its command has been abandoned, for another state of the receiver (R162). -/
theorem State.abandon_eq (s : State) (next : Receiver) :
    s.abandon next =
      { s with
        service :=
          { s.service with
            receiver := next, command := none, answer := none, bits := [], lastResult := .timeout, collided := 0
            resetDue := false, driveFor := 0, heldAccess := none, heldOption := none }
        path := { s.path with access :=
          match s.path.access with
          | some acc => if acc.phase = .inFlight then some { acc with owned := false } else none
          | none => none }
        nvWrite := s.nvWrite.map fun w => { w with owned := false } } := by
  unfold State.abandon
  cases s.path.access with
  | none => rfl
  | some acc =>
    obtain ⟨kind, addr, count, data, phase, owned, snaps⟩ := acc
    cases phase <;> rfl

theorem Receiver.inCommand_iff {r : Receiver} :
    r.inCommand = true ↔ r = .receiving ∨ r = .executing ∨ r = .answering := by cases r <;> decide

/-- Settles O53: each event by the receiver's state. -/
theorem syncErrorsAndGapsAbandon : Obligations.SyncErrorsAndGapsAbandon := by
  intro s run u inCommand abandoned synced
  have abandons : ∀ (next : Receiver) (v : ServiceUnit), ({ s with service := v } : State).abandon next = abandoned next v :=
    fun next v => State.abandon_eq _ next
  have runs : ∀ f : State → State, s.whileRunning f = f s := fun f => if_pos run
  refine ⟨fun quiet => ?_, fun busy low => ?_, fun reply => ?_, fun reply last => ?_, fun quiet => ?_, fun busy low => ?_,
    fun other => ?_, fun busy last => ?_⟩
  all_goals
    change Host.Outcome.next (s.whileRunning _) = _
    rw [runs]
    congr 1
  · have calm : (s.service.receiver.inCommand && !s.service.lowFromReady) = false := by
      obtain state | state | ⟨state, low⟩ := quiet <;> simp [show s.service.receiver = _ from state, Receiver.inCommand, u] at *
      simp [low]
    have notReply : s.service.receiver ≠ .syncReply := by
      obtain state | state | ⟨state, -⟩ := quiet <;> simp [show s.service.receiver = _ from state]
    rw [if_neg notReply, calm]
    rfl
  · have calls : (s.service.receiver.inCommand && !s.service.lowFromReady) = true := by
      rw [Receiver.inCommand_iff.2 busy, show s.service.lowFromReady = false from low]
      rfl
    have notReply : s.service.receiver ≠ .syncReply := by
      obtain state | state | state := busy <;> simp [show s.service.receiver = _ from state]
    rw [if_neg notReply, calls, if_pos rfl]
    exact congrArg (fun t : State => t.modService synced) (abandons .syncReply u)
  · exact if_pos reply
  · exact if_pos ⟨reply, last⟩
  · exact if_pos quiet
  · have notReady : ¬(s.service.receiver = .ready ∨ (s.service.receiver = .receiving ∧ s.service.lowFromReady = true)) := by
      rintro (ready | ⟨-, begun⟩)
      · obtain state | state | state := busy <;> simp [show s.service.receiver = _ from state] at ready
      · exact absurd (begun.symm.trans low) (by decide)
    rw [if_neg notReady, if_pos (Receiver.inCommand_iff.2 busy)]
    exact abandons .awaitSync u
  · obtain state | state := other <;> simp [show s.service.receiver = _ from state, Receiver.inCommand]
  · rw [if_pos ⟨Receiver.inCommand_iff.2 busy, last⟩]
    exact abandons .awaitSync { u with gapTimer := 1025 }

end Sys2Proof.Machine
end

section
/-! SUPPORT. Entry to service hold (R46, R83, R94, R114, R165). -/

namespace Sys2Proof.Machine

/-! ## Stages that leave their lists under hold (R83, R114) -/

/-- A stage on its way to DWELL with its timer at 0: there, or in a list and not at the instant of its dwell's end. -/
def StageUnit.Leaves (g : StageUnit) : Prop :=
  (g.state = .dwell ∧ g.dwell = 0) ∨ ((g.state = .queued ∨ g.state = .on) ∧ g.ended = false)

namespace Blocks

variable {b : Blocks} {u : Stage}

theorem reconcileStage_leaves (leaves : (b.stage u).Leaves) (st : Stage) : ((b.reconcileStage st).stage u).Leaves := by
  by_cases same : u = st
  · subst same
    obtain dwell | ⟨listed, open'⟩ := leaves
    · rw [reconcileStage_of_stands (.inr (.inr dwell.1))]
      exact .inl dwell
    · by_cases called : b.called u = true
      · rw [reconcileStage_of_stands (.inr (.inl ⟨listed, called⟩))]
        exact .inr ⟨listed, open'⟩
      · rw [reconcileStage_of_listed listed called, withdrawStage_at, if_pos rfl, StageUnit.withdrawn,
          if_neg (by rw [open']; exact Bool.false_ne_true)]
        exact .inl ⟨rfl, rfl⟩
  · rwa [b.reconcileStage_at_of_ne same]

theorem refreshPocket_leaves (leaves : (b.stage u).Leaves) (p : Pocket) : ((b.refreshPocket p).stage u).Leaves := by
  obtain ⟨w, same⟩ := b.judged_stage_want u p
  rw [refreshPocket_eq]
  refine reconcileStage_leaves (reconcileStage_leaves ?_ _) _
  rw [same]
  exact leaves

theorem revoke_leaves (lists : b.ListsAgree) (leaves : (b.stage u).Leaves) : (b.revoke.stage u).Leaves := by
  rw [revoke_at]
  split
  case isFalse => exact leaves
  case isTrue taken =>
    obtain ⟨dwell, -⟩ | ⟨-, open'⟩ := leaves
    · exact absurd (b.revoked_granted u taken) (dwell_unlisted lists dwell).1
    · exact .inr ⟨.inl rfl, open'⟩

theorem judgeHead_leaves (lists : b.ListsAgree) (leaves : (b.stage u).Leaves) : (b.judgeHead.stage u).Leaves := by
  rw [judgeHead_at]
  split
  case isFalse => exact leaves
  case isTrue fits =>
    obtain ⟨dwell, -⟩ | ⟨-, open'⟩ := leaves
    · exact absurd (b.headFits_queued u fits) (dwell_unlisted lists dwell).2
    · exact .inr ⟨.inr rfl, open'⟩

theorem settle_leaves (lists : b.ListsAgree) (leaves : (b.stage u).Leaves) : (b.settle.stage u).Leaves := by
  have listsB := refreshPocket_listsAgree (refreshPocket_listsAgree lists .a) .b
  exact judgeHead_leaves (revoke_spec _ listsB).1
    (revoke_leaves listsB (refreshPocket_leaves (refreshPocket_leaves leaves .a) .b))

/-! ## No permission under hold (R82) -/

theorem permissionHolds_of_held (held : b.held = true) (p : Pocket) : b.permissionHolds p = false := by
  have refused := b.permissionHolds_iff p
  rw [← Bool.not_eq_true]
  intro holds
  obtain ⟨-, -, -, -, -, free⟩ := refused.1 holds
  exact absurd (held.symm.trans free) (by decide)

/-- At the end of an event in hold no stage is in a list. -/
theorem settle_unlisted (lists : b.ListsAgree) (held : b.held = true) (st : Stage) :
    (b.settle.stage st).state ≠ .on ∧ (b.settle.stage st).state ≠ .queued := by
  obtain ⟨-, judged, stands, -⟩ := b.settle_settled lists
  have refused : (b.settle.pocket (stagePocket st)).permission = false := by
    obtain ⟨permission, -⟩ := judged (stagePocket st)
    rw [permission]
    exact permissionHolds_of_held (by rw [settle_held, held]) _
  obtain ⟨listed, -⟩ := stands st
  constructor
  · intro on
    obtain ⟨-, permitted⟩ := listed (.inl on)
    exact absurd (permitted.symm.trans refused) (by decide)
  · intro queued
    obtain ⟨-, permitted⟩ := listed (.inr queued)
    exact absurd (permitted.symm.trans refused) (by decide)

theorem settle_lists_of_held (lists : b.ListsAgree) (held : b.held = true) :
    b.settle.load.grants = [] ∧ b.settle.load.queue = [] := by
  obtain ⟨⟨-, -, listed⟩, -⟩ := b.settle_settled lists
  constructor
  · refine List.eq_nil_iff_forall_not_mem.2 fun st granted => ?_
    exact (settle_unlisted lists held st).1 ((listed st).1.2 granted)
  · refine List.eq_nil_iff_forall_not_mem.2 fun e queued => ?_
    exact (settle_unlisted lists held e.stage).2 ((listed e.stage).2.2 (List.mem_map_of_mem queued))

/-- An OFF stage stays OFF at the end of an event in hold. -/
theorem reconcileStage_of_off {st : Stage} (barred : (b.pocket (stagePocket st)).permission = false)
    (off : (b.stage u).state = .off) : ((b.reconcileStage st).stage u).state = .off := by
  by_cases same : u = st
  · subst same
    have uncalled : ¬b.called u = true := by
      rw [called_iff, barred]
      simp
    rw [reconcileStage_of_stands (.inl ⟨off, uncalled⟩), off]
  · rwa [b.reconcileStage_at_of_ne same]

theorem refreshPocket_of_off (held : b.held = true) (off : (b.stage u).state = .off) (p : Pocket) :
    ((b.refreshPocket p).stage u).state = .off := by
  have own : stagePocket (stagesOf p).1 = p ∧ stagePocket (stagesOf p).2 = p := by cases p <;> exact ⟨rfl, rfl⟩
  obtain ⟨own₁, own₂⟩ := own
  have barred : ((b.judged p).pocket p).permission = false := by
    rw [Blocks.judged, modPocket_pocket]
    exact permissionHolds_of_held held p
  have judged : ((b.judged p).stage u).state = .off := by
    obtain ⟨w, same⟩ := b.judged_stage_want u p
    rw [same]
    exact off
  rw [refreshPocket_eq]
  refine reconcileStage_of_off ?_ (reconcileStage_of_off (by rw [own₁]; exact barred) judged)
  obtain ⟨permission, -⟩ := (b.judged p).reconcileStage_permission (stagesOf p).1 p
  rw [own₂, permission, barred]

theorem settle_of_off (lists : b.ListsAgree) (held : b.held = true) (off : (b.stage u).state = .off) :
    (b.settle.stage u).state = .off := by
  have heldA : (b.refreshPocket .a).held = true := (congrArg Blocks.held (b.refreshPocket_apartFromHeat .a)).trans held
  have offB := refreshPocket_of_off heldA (refreshPocket_of_off held off .a) .b
  have listsB := refreshPocket_listsAgree (refreshPocket_listsAgree lists .a) .b
  have unlisted : ∀ {c : Blocks}, c.ListsAgree → (c.stage u).state = .off →
      u ∉ c.load.grants ∧ u ∉ c.load.queue.map QueueEntry.stage := by
    rintro c ⟨-, -, listed⟩ off
    obtain ⟨on, queued⟩ := listed u
    exact ⟨fun mem => by simpa [off] using on.2 mem, fun mem => by simpa [off] using queued.2 mem⟩
  have revoked : ((((b.refreshPocket .a).refreshPocket .b).revoke).stage u).state = .off := by
    rw [revoke_at, if_neg fun mem => (unlisted listsB offB).1 (revoked_granted _ u mem), offB]
  rw [settle, judgeHead_at, if_neg, revoked]
  exact fun fits => (unlisted (revoke_spec _ listsB).1 revoked).2 (headFits_queued _ u fits)

end Blocks

/-! ## HOLD (R46, R165) -/

/-- A stage at entry to hold (R83, R94, R114). -/
def StageUnit.intoHold (o : OptionState) (g : StageUnit) : StageUnit :=
  if o = .optionFault then g
  else if g.state = .off then { g with state := .dwell, dwell := 0, ended := false } else { g with ended := false }

/-- A pocket at entry to hold (R46). -/
def PocketUnit.intoHold (o : OptionState) (v : PocketUnit) : PocketUnit :=
  let c := v.cycle
  let active := c.state = .starting ∨ c.state = .drying ∨ c.state = .extending ∨ c.state = .cooling
  { v with
    cycle :=
      { c with
        state := .held, holdFrom := some c.state
        resume := if c.state = .starting then c.startTarget else if active then some c.state else c.resume
        startTarget := if active then none else c.startTarget }
    drum := v.drum.askedToStop, stage1 := v.stage1.intoHold o, stage2 := v.stage2.intoHold o }

theorem Cycle.enterHeld_eq (c : Cycle) :
    let active := c.state = .starting ∨ c.state = .drying ∨ c.state = .extending ∨ c.state = .cooling
    c.enterHeld =
      { c with
        state := .held, holdFrom := some c.state
        resume := if c.state = .starting then c.startTarget else if active then some c.state else c.resume
        startTarget := if active then none else c.startTarget } := by
  cases state : c.state <;> simp [Cycle.enterHeld, Cycle.resumeState, CycleState.isActive, state]

namespace Blocks

variable {b : Blocks}

theorem holdPocket_eq (p : Pocket) :
    b.holdPocket p = b.modPocket p fun u => { u with cycle := u.cycle.enterHeld, drum := u.drum.askedToStop } := by
  simp only [holdPocket, stopDrum, modDrum, modCycle, modPocket_modPocket, Drum.stopRequest_eq]

theorem holdStages_eq (p : Pocket) :
    b.holdStages p = b.modPocket p fun u =>
      { u with stage1 := u.stage1.intoHold b.optionState, stage2 := u.stage2.intoHold b.optionState } := by
  unfold holdStages valid
  cases state : b.optionState with
  | valid => rfl
  | optionFault => exact (b.modPocket_id p).symm

/-- Entry to hold, before the event ends (R46, R165). -/
def intoHold (b : Blocks) : Blocks :=
  ({ b with
    held := true, pocketA := b.pocketA.intoHold b.optionState, pocketB := b.pocketB.intoHold b.optionState } :
    Blocks).withPending 0x8000

theorem intoHold_eq (b : Blocks) :
    ((((({ b with held := true } : Blocks).holdPocket .a).holdPocket .b).holdStages .a).holdStages .b).raiseCause .service =
      b.intoHold := by
  have pocket : ∀ v : PocketUnit, v.intoHold b.optionState =
      { v with
        cycle := v.cycle.enterHeld, drum := v.drum.askedToStop, stage1 := v.stage1.intoHold b.optionState
        stage2 := v.stage2.intoHold b.optionState } := fun v => by rw [Cycle.enterHeld_eq]; rfl
  rw [raiseCause_of_edge rfl, holdStages_eq, holdStages_eq, holdPocket_eq, holdPocket_eq, intoHold, pocket, pocket]
  rfl

theorem intoHold_listsAgree (lists : b.ListsAgree) : b.intoHold.ListsAgree := by
  rw [← intoHold_eq]
  have entered := ((((b.setHeld_keeps (P := fun _ => False) true).trans (holdPocket_frame _ .a).keeps).trans
    (holdPocket_frame _ .b).keeps).trans (holdStages_keeps _ .a)).trans (holdStages_keeps _ .b)
  exact (raiseCause_sameLists _ _).listsAgree (entered.lists lists)

theorem intoHold_stage (b : Blocks) (st : Stage) : b.intoHold.stage st = (b.stage st).intoHold b.optionState := by
  cases st <;> rfl

/-- In VALID every stage is in DWELL after the event, the timer of one that was there standing (R83, R114). -/
theorem intoHold_dwells (lists : b.ListsAgree) (valid : b.optionState = .valid) (st : Stage) :
    (b.intoHold.settle.stage st).state = .dwell ∧
      (b.intoHold.settle.stage st).dwell = if (b.stage st).state = .dwell then (b.stage st).dwell else 0 := by
  have listsHeld := intoHold_listsAgree lists
  have entered := b.intoHold_stage st
  rw [valid, StageUnit.intoHold, if_neg (by simp)] at entered
  by_cases dwell : (b.stage st).state = .dwell
  · rw [if_neg (by simp [dwell])] at entered
    obtain ⟨state, timer⟩ := settle_of_dwell listsHeld (by rw [entered]; exact dwell)
    rw [if_pos dwell]
    exact ⟨state, by rw [timer, entered]⟩
  · have leaves : (b.intoHold.stage st).Leaves := by
      rw [entered]
      by_cases off : (b.stage st).state = .off
      · rw [if_pos off]
        exact .inl ⟨rfl, rfl⟩
      · rw [if_neg off]
        refine .inr ⟨?_, rfl⟩
        cases state : (b.stage st).state <;> simp [state] at off dwell ⊢
    rw [if_neg dwell]
    obtain stays | ⟨listed, -⟩ := settle_leaves listsHeld leaves
    · exact stays
    · obtain ⟨notOn, notQueued⟩ := settle_unlisted listsHeld rfl st
      exact absurd listed (not_or.2 ⟨notQueued, notOn⟩)

end Blocks

/-- Settles O56: the entry to hold of both pockets and of their stages, and its refusals. -/
theorem holdStopsBothPockets : Obligations.HoldStopsBothPockets := by
  intro s takes b u dwells hold
  have runs : exec .hold s = .next
      (if s.blocks.held then { s with service := u.answered .ok 0 [0] }
      else if s.service.permit || !s.blocks.valid then
        { s with blocks := s.blocks.intoHold.settle, service := u.answered .ok 0 [0] }
      else { s with service := u.answered .refused 0 [1] }) := by
    change Host.Outcome.next _ = _
    rw [holdBytes, State.execute_of_takes takes]
    simp only [State.completeCommand_eq]
    rw [← Blocks.intoHold_eq]
    rfl
  refine ⟨fun free allowed => ?_, fun free barred valid => ?_, fun held => ?_⟩
  · have enters : exec .hold s = .next { s with blocks := s.blocks.intoHold.settle, service := u.answered .ok 0 [0] } := by
      rw [runs, show s.blocks.held = false from free, if_neg Bool.false_ne_true, if_pos]
      obtain permit | fault := allowed
      · simp [permit]
      · simp [Blocks.valid, show s.blocks.optionState = _ from fault]
    refine ⟨⟨enters, fun lists => Blocks.settle_settled _ (Blocks.intoHold_listsAgree lists)⟩, fun t next lists => ?_⟩
    obtain rfl := Host.Outcome.next.inj (enters.symm.trans next)
    have listsHeld := Blocks.intoHold_listsAgree lists
    obtain ⟨grants, queue⟩ := Blocks.settle_lists_of_held listsHeld rfl
    refine ⟨grants, queue, fun st => ?_⟩
    split
    case isTrue valid => exact Blocks.intoHold_dwells lists valid st
    case isFalse fault =>
      intro off
      refine Blocks.settle_of_off listsHeld rfl ?_
      have isFault : s.blocks.optionState = .optionFault := by
        cases state : s.blocks.optionState with
        | valid => exact absurd state fault
        | optionFault => rfl
      rw [Blocks.intoHold_stage, isFault]
      exact off
  · rw [runs, show s.blocks.held = false from free, show s.service.permit = false from barred, Blocks.valid,
      decide_eq_true (show s.blocks.optionState = _ from valid)]
    rfl
  · rw [runs, show s.blocks.held = true from held]
    rfl

end Sys2Proof.Machine
end

section
/-! SUPPORT. Release from service hold (R47, R165). -/

namespace Sys2Proof.Machine

/-- A pocket that leaves HELD, by R47's table. -/
def Blocks.released (b : Blocks) (p : Pocket) (v : PocketUnit) : PocketUnit :=
  let c := { v.cycle with holdFrom := none, freshness := b.freshSeconds }
  let cause := b.causeAtEntry p
  let lands : Cycle :=
    match v.cycle.holdFrom with
    | some .starting | some .drying | some .extending | some .cooling | some .paused =>
      if cause.isSome then { c with state := .faulted, lockout := cause, startTarget := none, resume := none }
      else { c with state := .paused }
    | some .creaseGuard | some .done =>
      if b.doorClosed p then { c with state := .done }
      else { c with state := .idle, startTarget := none, resume := none }
    | some .faulted => { c with state := .faulted }
    | _ => { c with state := .idle }
  { v with cycle := lands }

namespace Blocks

variable {b : Blocks} {p : Pocket}

theorem modPocket_withPending (x : BitVec 16) (f : PocketUnit → PocketUnit) :
    (b.withPending x).modPocket p f = (b.modPocket p f).withPending x := by cases p <;> rfl

theorem withPending_withPending (x y : BitVec 16) : (b.withPending x).withPending y = b.withPending (x ||| y) := by
  unfold withPending
  rw [BitVec.or_assoc]

theorem withPending_zero : b.withPending 0 = b := by
  unfold withPending
  rw [show b.alerts.pending ||| 0 = b.alerts.pending from BitVec.or_zero]

theorem entryLockout_withPending (one : b.OneCause p) (x : BitVec 16) :
    (b.withPending x).entryLockout p = (b.entryLockout p).withPending x := by
  have conditions : (b.withPending x).lockoutConditions p = b.lockoutConditions p := by cases p <;> rfl
  have still : (b.withPending x).OneCause p := by
    rw [OneCause, conditions]
    cases p <;> exact one
  rw [entryLockout_of_oneCause still, entryLockout_of_oneCause one, conditions, modPocket_withPending]

/-- A pocket that lands in PAUSED, its drum still (R41, R43, R47). -/
theorem landFromHold_of_paused (one : b.OneCause p) (paused : (b.pocket p).cycle.state = .paused)
    (still : (b.pocket p).drum.askedToStop = (b.pocket p).drum) :
    b.landFromHold p = b.modCycle p fun c =>
      if (b.causeAtEntry p).isSome then
        { c with state := .faulted, lockout := b.causeAtEntry p, startTarget := none, resume := none }
      else c := by
  unfold landFromHold modCycle
  rw [paused]
  dsimp only
  split
  case isTrue recorded =>
    obtain ⟨k, recorded⟩ := Option.isSome_iff_exists.1 recorded
    have cause : b.causeAtEntry p = some k := by simp [causeAtEntry, recorded]
    rw [goFaulted_eq]
    exact modPocket_congr (by simp [cause, recorded, still])
  case isFalse none =>
    have cause : b.causeAtEntry p = (b.lockoutConditions p).head? := by
      simp [causeAtEntry, Option.not_isSome_iff_eq_none.1 none]
    rw [entryLockout_of_oneCause one, cause]
    refine modPocket_congr ?_
    cases (b.lockoutConditions p).head? <;>
      simp [PocketUnit.entered, PocketUnit.lockedOut, paused, still, Option.not_isSome_iff_eq_none.1 none]

theorem landFromHold_of_done (done : (b.pocket p).cycle.state = .done)
    (still : (b.pocket p).drum.askedToStop = (b.pocket p).drum) :
    b.landFromHold p = b.modCycle p fun c =>
      if b.doorClosed p then c else { c with state := .idle, startTarget := none, resume := none } := by
  unfold landFromHold modCycle
  rw [done]
  dsimp only
  split
  case isTrue closed => exact (b.modPocket_id p).symm
  case isFalse opened =>
    rw [enterIdle_eq]
    exact modPocket_congr (by rw [still])

theorem landFromHold_of_other (paused : (b.pocket p).cycle.state ≠ .paused) (done : (b.pocket p).cycle.state ≠ .done) :
    b.landFromHold p = b := by
  unfold landFromHold
  split <;> first | contradiction | rfl

/-- The causes a release raises for a guard that was interrupted (R47). -/
def guardDone (b : Blocks) (p : Pocket) : BitVec 16 :=
  if (b.pocket p).cycle.holdFrom = some .creaseGuard then (Cause.done p).bit else 0

theorem releasePocket_eq (one : b.OneCause p) (held : (b.pocket p).cycle.state = .held)
    (still : (b.pocket p).drum.askedToStop = (b.pocket p).drum) :
    b.releasePocket p = (b.modPocket p (b.released p)).withPending (b.guardDone p) := by
  let left : Blocks := b.modCycle p fun c =>
    { c with state := stateAfterHold c.holdFrom, holdFrom := none, freshness := b.freshSeconds }
  have raised : (if (b.pocket p).cycle.holdFrom = some .creaseGuard then left.raiseCause (.done p) else left) =
      left.withPending (b.guardDone p) := by
    unfold guardDone
    split
    · exact raiseCause_done left p
    · exact withPending_zero.symm
  let after : Blocks := left.withPending (b.guardDone p)
  have pocket : after.pocket p = { b.pocket p with cycle :=
      { (b.pocket p).cycle with
        state := stateAfterHold (b.pocket p).cycle.holdFrom, holdFrom := none, freshness := b.freshSeconds } } := by
    cases p <;> rfl
  have conditions : after.lockoutConditions p = b.lockoutConditions p := by cases p <;> rfl
  have cause : after.causeAtEntry p = b.causeAtEntry p := by rw [causeAtEntry, conditions, pocket]; rfl
  have door : after.doorClosed p = b.doorClosed p := by cases p <;> rfl
  have oneAfter : after.OneCause p := by rw [OneCause, conditions, pocket]; exact one
  have stillAfter : (after.pocket p).drum.askedToStop = (after.pocket p).drum := by rw [pocket]; exact still
  have lands : ∀ {f : Cycle → Cycle}, after.landFromHold p = after.modCycle p f →
      (b.released p (b.pocket p)).cycle = f (after.pocket p).cycle →
      after.landFromHold p = (b.modPocket p (b.released p)).withPending (b.guardDone p) := by
    intro f landed same
    refine (landed.trans (modPocket_withPending _ _)).trans (congrArg (withPending · _) ?_)
    refine (b.modPocket_modPocket p _ _).trans (modPocket_congr ?_)
    rw [pocket] at same
    exact congrArg (fun c => ({ b.pocket p with cycle := c } : PocketUnit)) same.symm
  unfold releasePocket
  dsimp only
  rw [if_pos held]
  refine (congrArg (landFromHold · p) raised).trans ?_
  have state : (after.pocket p).cycle.state = stateAfterHold (b.pocket p).cycle.holdFrom := by rw [pocket]
  have id : after = after.modCycle p fun c => c := (after.modPocket_id p).symm
  have paused := landFromHold_of_paused (p := p) oneAfter
  have done := landFromHold_of_done (b := after) (p := p)
  have other : stateAfterHold (b.pocket p).cycle.holdFrom ≠ .paused → stateAfterHold (b.pocket p).cycle.holdFrom ≠ .done →
      after.landFromHold p = after.modCycle p fun c => c := fun notPaused notDone =>
    (landFromHold_of_other (by rwa [state]) (by rwa [state])).trans id
  cases origin : (b.pocket p).cycle.holdFrom with
  | none =>
    rw [origin] at state other
    refine lands (other (by simp [stateAfterHold]) (by simp [stateAfterHold])) ?_
    rw [pocket, released, origin]
    rfl
  | some k =>
    rw [origin] at state other
    cases k
    case idle | held =>
      refine lands (other (by simp [stateAfterHold]) (by simp [stateAfterHold])) ?_
      rw [pocket, released, origin]
      rfl
    case faulted =>
      refine lands (other (by simp [stateAfterHold]) (by simp [stateAfterHold])) ?_
      rw [pocket, released, origin]
      rfl
    case creaseGuard | done =>
      refine lands (done state stillAfter) ?_
      rw [pocket, released, origin, door]
      rfl
    case starting | drying | extending | cooling | paused =>
      refine lands (paused state stillAfter) ?_
      rw [pocket, released, origin, cause]
      rfl

end Blocks

theorem Drum.askedToStop_of_still {d : Drum} (stop : d.request = .stop) (off : d.motorOn = false) : d.askedToStop = d := by
  have apart : ¬(d.state = .spinup ∨ d.state = .run) := by
    rintro (state | state) <;> simp [Drum.motorOn, state] at off
  rw [Drum.askedToStop, if_neg apart, ← stop]

namespace Blocks

/-- What every held pocket is: HELD, its drum off with STOP held, and one lockout cause at most to record (R46, R51). -/
def Still (b : Blocks) (p : Pocket) : Prop :=
  (b.pocket p).cycle.state = .held ∧ (b.pocket p).drum.request = .stop ∧ (b.pocket p).drum.motorOn = false ∧ b.OneCause p

theorem releasePocket_of_still {b : Blocks} {p : Pocket} (still : b.Still p) :
    b.releasePocket p = (b.modPocket p (b.released p)).withPending (b.guardDone p) := by
  obtain ⟨held, stop, off, one⟩ := still
  exact releasePocket_eq one held (Drum.askedToStop_of_still stop off)

/-- Release from hold, before the event ends. -/
def leaving (b : Blocks) : Blocks :=
  ({ b with held := false, pocketA := b.released .a b.pocketA, pocketB := b.released .b b.pocketB } : Blocks).withPending
    (0x8000 ||| b.guardDone .a ||| b.guardDone .b)

theorem leaving_eq {b : Blocks} (still : ∀ p, b.Still p) :
    ((((({ b with held := false } : Blocks).releasePocket .a).releasePocket .b).trySpinUp .a).trySpinUp .b).raiseCause
      .service = b.leaving := by
  let free : Blocks := { b with held := false }
  have first : free.releasePocket .a = (free.modPocket .a (b.released .a)).withPending (b.guardDone .a) :=
    releasePocket_of_still (still .a)
  let second : Blocks := (free.modPocket .a (b.released .a)).withPending (b.guardDone .a)
  have both : second.releasePocket .b = (second.modPocket .b (b.released .b)).withPending (b.guardDone .b) :=
    releasePocket_of_still (still .b)
  obtain ⟨-, stopA, -⟩ := still .a
  obtain ⟨-, stopB, -⟩ := still .b
  change ((((free.releasePocket .a).releasePocket .b).trySpinUp .a).trySpinUp .b).raiseCause .service = _
  rw [first]
  change (((second.releasePocket .b).trySpinUp .a).trySpinUp .b).raiseCause .service = _
  let last : Blocks := (second.modPocket .b (b.released .b)).withPending (b.guardDone .b)
  have noneA : last.trySpinUp .a = last := trySpinUp_of_stop stopA
  have noneB : last.trySpinUp .b = last := trySpinUp_of_stop stopB
  have service : last.raiseCause .service = last.withPending 0x8000 := raiseCause_of_edge rfl last
  have order : b.guardDone .a ||| (b.guardDone .b ||| 0x8000#16) = 0x8000#16 ||| b.guardDone .a ||| b.guardDone .b := by
    rw [← BitVec.or_assoc, BitVec.or_comm, ← BitVec.or_assoc]
  calc (((second.releasePocket .b).trySpinUp .a).trySpinUp .b).raiseCause .service = last.withPending 0x8000 := by
        rw [both, noneA, noneB, service]
    _ = ((free.modPocket .a (b.released .a)).modPocket .b (b.released .b)).withPending
          (b.guardDone .a ||| (b.guardDone .b ||| 0x8000#16)) := by
        rw [← withPending_withPending, ← modPocket_withPending, ← withPending_withPending]
        rfl
    _ = b.leaving := by rw [order]; rfl

theorem leaving_listsAgree {b : Blocks} (still : ∀ p, b.Still p) (lists : b.ListsAgree) : b.leaving.ListsAgree := by
  rw [← leaving_eq still]
  have left := ((((b.setHeld_keeps (P := fun _ => False) false).trans (releasePocket_frame _ .a).keeps).trans
    (releasePocket_frame _ .b).keeps).trans (trySpinUp_frame _ .a).keeps).trans (trySpinUp_frame _ .b).keeps
  exact (raiseCause_sameLists _ _).listsAgree (left.lists lists)

end Blocks

/-- Settles O57: each row of R47's table. -/
theorem releaseLandsByTheTable : Obligations.ReleaseLandsByTheTable := by
  intro s takes b u release raised
  have runs : exec .release s = .next
      (if s.blocks.held then { s with blocks := s.blocks.leaveHold, service := u.answered .ok 0 [0] }
      else { s with service := u.answered .refused 0 [1] }) := by
    change Host.Outcome.next _ = _
    rw [releaseBytes, State.execute_of_takes takes]
    simp only [State.completeCommand_eq]
    rfl
  refine ⟨fun held pockets => ?_, fun free => ?_⟩
  · have still : ∀ p, s.blocks.Still p := pockets
    have same : s.blocks.leaving =
        ({ b with held := false, pocketA := release .a b.pocketA, pocketB := release .b b.pocketB } : Blocks).withPending
          raised := by
      have table : ∀ p v, s.blocks.released p v = release p v := fun p v => by
        unfold Blocks.released
        simp only [release]
        cases v.cycle.holdFrom <;> rfl
      rw [Blocks.leaving, table, table]
      rfl
    rw [← same]
    refine ⟨?_, fun lists => Blocks.settle_settled _ (Blocks.leaving_listsAgree still lists)⟩
    rw [runs, show s.blocks.held = true from held, if_pos rfl, Blocks.leaveHold, Blocks.leaving_eq still]
  · rw [runs, show s.blocks.held = false from free]
    rfl

end Sys2Proof.Machine
end

section
/-! SUPPORT. The option row commands (R161 to R163, R167). -/

namespace Sys2Proof.Machine

theorem OptionState.code_eq (o : OptionState) : byteOf o.code = if o = .valid then 0 else 1 := by cases o <;> rfl

/-- An OPT_READ or OPT_WRITE carried out (R167). -/
theorem State.runOption_eq (s : State) (c : OptionCommand) : s.runOption c = s.afterOption c := by
  cases c with
  | read off n =>
    unfold State.runOption State.afterOption
    dsimp only
    split <;> rfl
  | write off n data =>
    unfold State.runOption State.afterOption
    dsimp only
    rw [OptionState.code_eq]
    rfl

theorem countInRange_iff {n : Byte} : countInRange n = true ↔ 1 ≤ n.toNat ∧ n.toNat ≤ 16 := by
  simp [countInRange]

/-- The bytes of a row after a write (R167). -/
theorem writeRow_getElem? {row data : List Byte} {off : Nat} (fits : off + data.length ≤ row.length) (i : Nat) :
    (writeRow row off data)[i]? = if off ≤ i ∧ i < off + data.length then data[i - off]? else row[i]? := by
  have left : (row.take off).length = off := by rw [List.length_take]; omega
  unfold writeRow
  rw [List.append_assoc, List.getElem?_append, left]
  split
  case isTrue below => rw [if_neg (by omega), List.getElem?_take_of_lt below]
  case isFalse above =>
    rw [List.getElem?_append]
    split
    case isTrue inside => rw [if_pos (by omega)]
    case isFalse beyond => rw [if_neg (by omega), List.getElem?_drop]; congr 1; omega

theorem writeRow_length {row data : List Byte} {off : Nat} (fits : off + data.length ≤ row.length) :
    (writeRow row off data).length = row.length := by
  simp only [writeRow, List.length_append, List.length_take, List.length_drop]
  omega

theorem dataFits_iff {n : Byte} {data : List Byte} :
    dataFits n data = true ↔
      ((1 ≤ n.toNat ∧ n.toNat ≤ 16) ∧ data.length = n.toNat) ∨ (¬(1 ≤ n.toNat ∧ n.toNat ≤ 16) ∧ data = []) := by
  unfold dataFits
  by_cases inRange : 1 ≤ n.toNat ∧ n.toNat ≤ 16
  · rw [if_pos (countInRange_iff.2 inRange)]
    simp [inRange]
  · rw [if_neg (mt countInRange_iff.1 inRange)]
    simp [inRange]

/-- The state with a command taken (R161). -/
def State.begun (s : State) (bytes : List Byte) : State := { s with service := s.service.beginCommand bytes }

/-- An OPT_READ or OPT_WRITE of a count in range, by the nonvolatile write (R162). -/
def State.carriedOut (s : State) (c : OptionCommand) : State :=
  if s.nvWrite.isSome then { s with service := { s.service with heldOption := some c } } else s.afterOption c

theorem State.carriedOut_of_busy {s : State} (busy : s.nvWrite.isSome = true) (bytes : List Byte) (c : OptionCommand) :
    (s.begun bytes).carriedOut c =
      { s with service := { s.service.beginCommand bytes with heldOption := some c } } := if_pos busy

theorem State.carriedOut_of_idle {s : State} (idle : s.nvWrite = none) (bytes : List Byte) (c : OptionCommand) :
    (s.begun bytes).carriedOut c = (s.begun bytes).afterOption c := if_neg (by simp [State.begun, idle])

section

variable {s : State} {off n : Byte} {data : List Byte}

/-- OPT_READ, by its count and the nonvolatile write (R161, R162, R167). -/
theorem exec_optRead (takes : s.Takes [6, off, n]) :
    exec (.optRead off n) s = .next
      (if 1 ≤ n.toNat ∧ n.toNat ≤ 16 then (s.begun [6, off, n]).carriedOut (.read off n)
      else { s.begun [6, off, n] with service := (s.begun [6, off, n]).service.answered .refused 0 [1] }) := by
  change Host.Outcome.next _ = _
  rw [optReadBytes, State.execute_of_takes takes]
  simp only [State.completeCommand_eq, State.handOption, State.runOption_eq, countInRange_iff]
  rfl

theorem exec_optWrite (takes : s.Takes (7 :: off :: n :: data)) (fits : dataFits n data = true) :
    exec (.optWrite off n data) s = .next
      (if 1 ≤ n.toNat ∧ n.toNat ≤ 16 then (s.begun (7 :: off :: n :: data)).carriedOut (.write off n data)
      else { s.begun (7 :: off :: n :: data) with service := (s.begun (7 :: off :: n :: data)).service.answered .refused 0 [1, 0] }) := by
  change Host.Outcome.next _ = _
  rw [if_pos fits, optWriteBytes, State.execute_of_takes takes]
  simp only [State.completeCommand_eq, State.handOption, State.runOption_eq, countInRange_iff]
  rfl

end

/-- Settles O58: the two commands by range and running write, and the completion byte by byte. -/
theorem optionRowIsReadAndWritten : Obligations.OptionRowIsReadAndWritten := by
  refine ⟨fun s off n data => ?_, fun s w run writing fits => ?_⟩
  · intro inRange fits read write state
    have inRangeIff : inRange ↔ 1 ≤ n.toNat ∧ n.toNat ≤ 16 := Iff.rfl
    refine ⟨fun takes valid idle => ?_, fun takes valid busy => ?_, fun takes invalid => ?_, fun takes valid length idle => ?_,
      fun takes valid length busy => ?_, fun takes invalid empty => ?_⟩
    · rw [exec_optRead takes, if_pos (inRangeIff.1 valid), State.carriedOut_of_idle idle]
      rfl
    · rw [exec_optRead takes, if_pos (inRangeIff.1 valid), State.carriedOut_of_busy busy]
    · rw [exec_optRead takes, if_neg (mt inRangeIff.2 invalid)]
      rfl
    · rw [exec_optWrite takes (dataFits_iff.2 (.inl ⟨valid, length⟩)), if_pos (inRangeIff.1 valid),
        State.carriedOut_of_idle idle]
      rfl
    · rw [exec_optWrite takes (dataFits_iff.2 (.inl ⟨valid, length⟩)), if_pos (inRangeIff.1 valid),
        State.carriedOut_of_busy busy]
    · rw [exec_optWrite takes (dataFits_iff.2 (.inr ⟨invalid, empty⟩)), if_neg (mt inRangeIff.2 invalid)]
      rfl
  · refine ⟨writeRow s.storedRow w.off w.data, ?_, writeRow_length fits, writeRow_getElem? fits⟩
    intro t
    have written : ({ s with storedRow := writeRow s.storedRow w.off w.data, nvWrite := none } : State).answerWrite w = t := by
      unfold State.answerWrite
      rw [State.completeCommand_eq, OptionState.code_eq]
      simp only [t]
      cases w.owned <;> rfl
    have waits : t.service.heldOption = s.service.heldOption := by
      simp only [t]
      cases w.owned <;> rfl
    change Host.Outcome.next (s.whileRunning _) = _
    rw [State.whileRunning, if_pos run, writing]
    dsimp only
    rw [written, State.runHeldOption, waits]
    cases s.service.heldOption with
    | none => rfl
    | some c => exact congrArg Host.Outcome.next (State.runOption_eq _ c)

end Sys2Proof.Machine
end

section
/-! SUPPORT. What a FETCH or a PEEK reads byte by byte, and the frames that pass uninterpreted (R1, R2, R11 to R17). -/

namespace Sys2Proof.Machine

/-! ## Bytes read from the link (R2, R11, R12, R15) -/

/-- The byte at an address with some snapshots kept: from a record's snapshot, or from the record as it stands. -/
def byteFrom (s : State) (snaps : Snapshots) (a : BitVec 17) : Byte :=
  match pageOffset s.blocks.reportBase a with
  | some off =>
    if substituted s.blocks (reportPlace off).1 then
      ((snaps.get (reportPlace off).1).getD (liveRecord s (reportPlace off).1)).getD (reportPlace off).2 0
    else readRam s.ram a.toNat
  | none => readRam s.ram a.toNat

theorem Snapshots.get_set (snaps : Snapshots) (r q : ReportId) (v : List Byte) :
    (snaps.set r v).get q = if q = r then some v else snaps.get q := by
  rcases r with (_ | _) | _ | _ <;> rcases q with (_ | _) | _ | _ <;> rfl

theorem readLink_byte (s : State) (snaps : Snapshots) (a : BitVec 17) : (readLink s snaps a).1 = byteFrom s snaps a := by
  unfold readLink byteFrom
  cases pageOffset s.blocks.reportBase a with
  | none => rfl
  | some off =>
    dsimp only
    split
    · cases snaps.get (reportPlace off).1 <;> rfl
    · rfl

/-- A snapshot frozen from the live state is not seen in the bytes read after it. -/
theorem byteFrom_readLink (s : State) (snaps : Snapshots) (a c : BitVec 17) :
    byteFrom s (readLink s snaps a).2 c = byteFrom s snaps c := by
  have frozen : ∀ q, ((readLink s snaps a).2.get q).getD (liveRecord s q) = (snaps.get q).getD (liveRecord s q) := by
    intro q
    unfold readLink
    cases pageOffset s.blocks.reportBase a with
    | none => rfl
    | some off =>
      dsimp only
      split
      case isFalse => rfl
      case isTrue =>
        cases kept : snaps.get (reportPlace off).1 with
        | some bytes => rfl
        | none =>
          dsimp only
          rw [Snapshots.get_set]
          split
          case isTrue same => rw [same, kept]; rfl
          case isFalse => rfl
  unfold byteFrom
  simp only [frozen]

theorem add_ofNat_succ (a : BitVec 17) (i : Nat) : a + 1 + BitVec.ofNat 17 i = a + BitVec.ofNat 17 (i + 1) := by
  rw [BitVec.add_assoc, BitVec.add_comm 1, show BitVec.ofNat 17 (i + 1) = BitVec.ofNat 17 i + 1 from BitVec.ofNat_add ..]

theorem readLinkBytes_eq (s : State) (n : Nat) (snaps : Snapshots) (a : BitVec 17) :
    (readLinkBytes s n snaps a).1 = (List.range n).map fun i => byteFrom s snaps (a + BitVec.ofNat 17 i) := by
  induction n generalizing snaps a with
  | zero => rfl
  | succ n ih =>
    have split : (readLinkBytes s (n + 1) snaps a).1 =
        (readLink s snaps a).1 :: (readLinkBytes s n (readLink s snaps a).2 (a + 1)).1 := rfl
    rw [split, readLink_byte, ih, List.range_succ_eq_map, List.map_cons, List.map_map]
    refine congr (congrArg List.cons (by simp)) (List.map_congr_left fun i _ => ?_)
    rw [byteFrom_readLink, add_ofNat_succ]
    rfl

theorem readRamBytes_eq (ram : List Host.Cell) (n : Nat) (a : BitVec 17) :
    readRamBytes ram n a = (List.range n).map fun i => readRam ram (a + BitVec.ofNat 17 i).toNat := by
  induction n generalizing a with
  | zero => rfl
  | succ n ih =>
    rw [List.range_succ_eq_map, List.map_cons, List.map_map, readRamBytes, ih]
    refine congr (congrArg List.cons (by simp)) (List.map_congr_left fun i _ => ?_)
    rw [add_ofNat_succ]
    rfl

/-- The first bits of a byte, most significant first. -/
theorem bitsOf_take (v : Byte) (cut : Nat) :
    (bitsOf v).take cut = (List.range (min cut 8)).map fun k => v.getLsbD (7 - k) := by
  have all : bitsOf v = (List.range 8).map fun k => v.getLsbD (7 - k) := rfl
  rw [all, ← List.map_take, List.take_range]

theorem take_map_range {α : Type} (f : Nat → α) (n : Nat) : ((List.range (n + 1)).map f).take n = (List.range n).map f := by
  rw [← List.map_take, List.take_range, min_eq_left (Nat.le_succ n)]

theorem getD_map_range {α : Type} (f : Nat → α) (n : Nat) (d : α) : ((List.range (n + 1)).map f).getD n d = f n := by
  simp [List.getD_eq_getElem?_getD]

/-! ## FETCH frames -/

/-- The byte a FETCH returns at an address (R11, R16, R17). -/
def fetchedByte (s : State) (a : BitVec 17) : Byte :=
  if s.interprets then byteFrom s .none a else readRam s.ram a.toNat

theorem State.fetchAnswer_eq (s : State) (addr : BitVec 24) (n cut : Nat) :
    s.fetchAnswer addr n cut =
      let byteAt := fun i => fetchedByte s (startAddress addr + BitVec.ofNat 17 i)
      ((List.range n).map byteAt, (List.range (min cut 8)).map fun k => (byteAt n).getLsbD (7 - k)) := by
  unfold State.fetchAnswer fetchedByte
  cases s.interprets with
  | true =>
    simp only [if_true, readLinkBytes_eq, take_map_range, getD_map_range, bitsOf_take]
  | false =>
    simp only [Bool.false_eq_true, if_false, readRamBytes_eq, take_map_range, getD_map_range, bitsOf_take]

/-- A FETCH frame on a free link. -/
theorem exec_fetchFrame {s : State} (powered : s.phase ≠ .off) (access : s.path.access = none) (addr : BitVec 24) (n : Nat)
    (ends : FrameEnd Nat) :
    exec (.fetchFrame addr n ends) s = .next
      (s.afterFrame (s.blocks.fetchCode :: addressBytes addr) { cut := [], again := ends.again }
        (s.fetchAnswer addr n ends.cut).1 (s.fetchAnswer addr n ends.cut).2) := by
  have same : s.beginFrame.fetchAnswer addr n ends.cut = s.fetchAnswer addr n ends.cut := by
    have bytes : ∀ a, fetchedByte s.beginFrame a = fetchedByte s a := by
      intro a
      have live : ∀ r, liveRecord s.beginFrame r = liveRecord s r := by
        intro r
        rw [State.beginFrame_of_noAccess s access]
        rcases r with (_ | _) | _ | _ <;> rfl
      unfold fetchedByte byteFrom
      simp only [live]
      rw [State.beginFrame_of_noAccess s access]
      rfl
    simp only [State.fetchAnswer_eq, bytes]
  change Host.Outcome.next _ = _
  rw [State.whilePowered, if_neg powered, State.passFetch, same, State.beginFrame_of_noAccess s access]
  rfl

theorem exec_shortFrame {s : State} (powered : s.phase ≠ .off) (access : s.path.access = none) (bytes : List Byte)
    (ends : FrameEnd (List Bool)) :
    exec (.shortFrame bytes ends) s = .next (s.afterFrame bytes ends [] []) := by
  change Host.Outcome.next _ = _
  rw [State.whilePowered, if_neg powered, State.passOpaque, State.beginFrame_of_noAccess s access]
  rfl

theorem classifyFrame_opaque {b : Blocks} {code : Byte} (rest : List Byte) (notStore : code ≠ b.storeCode)
    (notFetch : code ≠ b.fetchCode) : classifyFrame b (code :: rest) = .opaqueFrame := by
  simp [classifyFrame, notStore, notFetch]

/-- Settles O19: the frames on a free link, byte by byte. -/
theorem uninterpretedFramesPass : Obligations.UninterpretedFramesPass := by
  intro s ends powered access
  refine ⟨?_, fun code rest answer notStore notFetch => ?_, fun bytes _ => exec_shortFrame powered access bytes ends⟩
  · intro addr n cut transparent byteAt
    have fetched : ∀ a, fetchedByte s a = readRam s.ram a.toNat := fun a => if_neg (by simp [transparent])
    refine ⟨_, _, exec_fetchFrame powered access addr n _, ?_⟩
    rw [State.fetchAnswer_eq]
    simp only [fetched]
    refine ⟨by simp, fun i below => ?_, by simp, fun k below => ?_⟩
    · rw [List.getElem?_map, List.getElem?_range below]
      rfl
    · rw [List.getElem?_map, List.getElem?_range below]
      rfl
  · change Host.Outcome.next _ = _
    rw [State.whilePowered, if_neg powered, State.passFrame, classifyFrame_opaque rest notStore notFetch, State.passOpaque,
      State.beginFrame_of_noAccess s access]
    rfl

end Sys2Proof.Machine
end

section
/-! SUPPORT. The report records row by row, by their layouts and codes (R177 to R181). -/

namespace Sys2Proof.Machine

/-! ## Records laid out in rows -/

/-- The bytes of some rows of a layout: offset, size and value each. -/
def rowBytes (rows : List (Nat × Nat × Nat)) : List Byte := rows.flatMap fun row => toLe row.2.1 row.2.2

theorem rowBytes_cons (off size v : Nat) (rows : List (Nat × Nat × Nat)) :
    rowBytes ((off, size, v) :: rows) = toLe size v ++ rowBytes rows := rfl

theorem rowBytes_nil : rowBytes [] = [] := rfl

/-- The rows follow each other from an offset on without a gap. -/
def Tiles : Nat → List (Nat × Nat × Nat) → Prop
  | _, [] => True
  | start, (off, size, _) :: rest => off = start ∧ Tiles (start + size) rest

/-- A record made of rows without a gap holds each at its place. -/
theorem rowBytes_at {rows : List (Nat × Nat × Nat)} {before : List Byte} (tiles : Tiles before.length rows)
    {off size v : Nat} (mem : (off, size, v) ∈ rows) : ((before ++ rowBytes rows).drop off).take size = toLe size v := by
  induction rows generalizing before with
  | nil => simp at mem
  | cons row rest ih =>
    obtain ⟨first, width, value⟩ := row
    obtain ⟨rfl, further⟩ := tiles
    have bytes : before ++ rowBytes ((before.length, width, value) :: rest) =
        before ++ toLe width value ++ rowBytes rest := by
      simp [rowBytes]
    rw [bytes]
    obtain same | later := List.mem_cons.1 mem
    · obtain ⟨rfl, rfl, rfl⟩ : off = before.length ∧ size = width ∧ v = value := by simpa using same
      rw [List.append_assoc, List.drop_left, List.take_append_of_le_length (by simp [toLe_length])]
      exact List.take_of_length_le (by simp [toLe_length])
    · refine ih ?_ later
      rwa [List.length_append, toLe_length]

/-! ## Codes (R180, R181) -/

theorem CycleState.code_eq : CycleState.code = fun c => [CycleState.idle, .starting, .drying, .extending, .cooling,
    .creaseGuard, .done, .paused, .faulted, .held].idxOf c := by funext c; cases c <;> rfl

theorem Lockout.code_eq :
    Lockout.code = [Lockout.overheat, .highLimit, .sensor, .stale, .drum].idxOf := by funext c; cases c <;> rfl

theorem EndFlag.code_eq :
    EndFlag.code = [EndFlag.confirmedDry, .limitReached, .timedEnd, .advanced, .aborted].idxOf := by
  funext c; cases c <;> rfl

theorem ActionResult.code_eq :
    ActionResult.code = [ActionResult.none, .accepted, .notNow, .illegal, .held].idxOf := by funext c; cases c <;> rfl

theorem DrumState.code_eq : DrumState.code = [DrumState.stopped, .spinup, .run, .coast].idxOf := by
  funext c; cases c <;> rfl

theorem DrumRequest.code_eq : DrumRequest.code = [DrumRequest.stop, .run, .burst].idxOf := by funext c; cases c <;> rfl

theorem drumFaultCode_eq :
    drumFaultCode = [none, some DrumFault.spinupFail, some .stall, some .noStop, some .belt].idxOf := by
  funext c
  obtain none | (_ | _ | _ | _) := c <;> rfl

theorem StageState.code_eq : StageState.code = [StageState.off, .dwell, .queued, .on].idxOf := by
  funext c; cases c <;> rfl

theorem Channel.code_eq (c : Channel) : c.code = [none, some Side.low, some .high].idxOf c.fault := by
  unfold Channel.code
  obtain none | (_ | _) := c.fault <;> rfl

theorem Direction.isRev_eq (d : Direction) : d.isRev = (d == .rev) := by cases d <;> rfl

/-- A two-byte temperature as a number (R181). -/
def heatWord (t : Option Int) : Nat :=
  match t with
  | none => 0x8000
  | some v => (BitVec.ofInt 16 (if v = -32768 then -32767 else v)).toNat

theorem temperatureBytes_eq (t : Option Int) : temperatureBytes t = toLe 2 (heatWord t) := by cases t <;> rfl

theorem toLe_one (v : Nat) : toLe 1 v = [byteOf v] := rfl

theorem byteOf_toNat (v : Byte) : byteOf v.toNat = v := by simp [byteOf]

/-! ## The pocket record (R177) -/

/-- The rows of a pocket report record. -/
def pocketRows (u : PocketUnit) (r : TakeResult) : List (Nat × Nat × Nat) :=
  let c := u.cycle
  let d := u.drum
  [(0x00, 1, r.seq.toNat), (0x01, 1, r.action.code),
   (0x02, 3, r.clamped.toNat), (0x05, 3, r.torn.toNat), (0x08, 3, r.refused.toNat), (0x0B, 1, c.state.code),
   (0x0C, 1, (c.startTarget.map CycleState.code).getD 0xFF), (0x0D, 1, (c.resume.map CycleState.code).getD 0xFF),
   (0x0E, 1, (c.holdFrom.map CycleState.code).getD 0xFF), (0x0F, 1, (c.lockout.map Lockout.code).getD 0xFF),
   (0x10, 1, (c.endFlag.map EndFlag.code).getD 0xFF),
   (0x11, 1, c.freshness), (0x12, 2, c.elapsed), (0x14, 2, c.th), (0x16, 2, c.extension), (0x18, 2, c.cool),
   (0x1A, 2, c.creaseTimer), (0x1C, 2, c.creaseElapsed), (0x1E, 1, u.flags), (0x1F, 1, d.state.code),
   (0x20, 1, d.request.code), (0x21, 1, drumFaultCode d.lastFault),
   (0x22, 2, d.period), (0x24, 1, d.speed), (0x25, 1, d.spinTimer / 1000), (0x26, 2, d.runTimer / 1000),
   (0x28, 1, d.coastTimer / 1000), (0x29, 1, d.drag + 16 * d.tangles), (0x2A, 1, u.exhaust.code),
   (0x2B, 2, u.exhaust.lastRaw), (0x2D, 2, heatWord u.exhaust.translated), (0x2F, 2, heatWord u.exhaust.filtered),
   (0x31, 1, u.stage1.state.code), (0x32, 1, u.stage2.state.code), (0x33, 1, u.stage1.dwellSeconds),
   (0x34, 1, u.stage2.dwellSeconds), (0x35, 2, u.dryness.lastSample), (0x37, 1, u.dryness.gated), (0x38, 1, u.dryness.hits),
   (0x39, 2, u.dryness.lastHits), (0x3B, 2, u.dryness.wetness), (0x3D, 2, u.dryness.windows),
   (0x3F, 1, u.dryness.streak)]

theorem pocketReport_eq (u : PocketUnit) (r : TakeResult) : pocketReport u r = rowBytes (pocketRows u r) := by
  unfold pocketReport pocketRows
  simp only [temperatureBytes_eq, setBytes24, optionalByte, List.cons_append, List.nil_append, List.append_assoc]
  simp only [rowBytes_cons, rowBytes_nil, List.append_nil]
  simp only [toLe_one]
  simp only [List.cons_append, List.nil_append]
  rw [byteOf_toNat r.seq]

theorem pocketRows_tiles (u : PocketUnit) (r : TakeResult) : Tiles 0 (pocketRows u r) := by
  simp [Tiles, pocketRows]

/-! ## The common record (R178) -/

theorem CommandResult.code_eq :
    CommandResult.code = [CommandResult.ok, .refused, .collided, .linkBusy, .timeout].idxOf := by funext c; cases c <;> rfl

theorem ResetKind.code_eq : ResetKind.code = [ResetKind.powerOn, .pin, .service].idxOf := by funext c; cases c <;> rfl

theorem MainsState.code_eq : MainsState.code = [MainsState.normal, .sagged, .lost].idxOf := by funext c; cases c <;> rfl

theorem ChordState.code_eq : ChordState.code = [ChordState.inactive, .qualifying, .spent].idxOf := by
  funext c; cases c <;> rfl

theorem Level.code_eq : Level.code = [Level.unsettled, .active, .inactive].idxOf := by funext c; cases c <;> rfl

theorem OptionState.flag_eq (o : OptionState) : 128 * o.code = flagAt 7 (o == .optionFault) := by cases o <;> rfl

/-- A one-byte temperature as a number (R181). -/
def smallWord (t : Option Int) : Nat :=
  match t with
  | none => 0x80
  | some v => (BitVec.ofInt 8 (if 127 < v then 127 else if v < -127 then -127 else v)).toNat

theorem temperatureByte_eq (t : Option Int) : temperatureByte t = byteOf (smallWord t) := by
  cases t with
  | none => rfl
  | some v => exact (byteOf_toNat _).symm

theorem findIdx?_beq {α : Type} [DecidableEq α] (xs : List α) (a : α) :
    xs.findIdx? (fun x => x == a) = if a ∈ xs then some (xs.idxOf a) else none := by
  induction xs with
  | nil => rfl
  | cons x xs ih =>
    rw [List.findIdx?_cons, List.idxOf_cons, ih]
    by_cases same : x = a
    · simp [same]
    · simp only [beq_false_of_ne same, cond_false, List.mem_cons, Ne.symm same, false_or, Bool.false_eq_true, if_false]
      split <;> rfl

/-- The place of a stage in the queue or the grant list. -/
theorem LoadShare.place_eq (l : LoadShare) (st : Stage) :
    l.place st =
      if st ∈ l.queue.map QueueEntry.stage then (l.queue.map QueueEntry.stage).idxOf st + 1
      else if st ∈ l.grants then l.grants.idxOf st + 5 else 0 := by
  have queued : l.queue.findIdx? (fun e => e.stage == st) =
      (l.queue.map QueueEntry.stage).findIdx? (fun v => v == st) := by
    rw [List.findIdx?_map]
    rfl
  unfold LoadShare.place
  rw [queued, findIdx?_beq, findIdx?_beq]
  by_cases inQueue : st ∈ l.queue.map QueueEntry.stage
  · simp only [if_pos inQueue]
  · simp only [if_neg inQueue]
    by_cases granted : st ∈ l.grants
    · simp only [if_pos granted]
    · simp only [if_neg granted]

theorem LoadShare.notBeforeUnits_eq (l : LoadShare) (st : Stage) :
    l.notBeforeUnits st =
      (((l.queue.find? fun e => e.stage == st).bind QueueEntry.notBefore).map fun ms => ms / 100).getD 63 := by
  unfold LoadShare.notBeforeUnits
  cases l.queue.find? fun e => e.stage == st <;> rfl

/-- The rows of the common report record. -/
def commonRows (s : State) : List (Nat × Nat × Nat) :=
  let b := s.blocks
  let r := s.path.resultCommon
  let m := b.load.mains
  let pin := fun k i => flagAt k (b.input i).pin
  let heater := fun st i => b.load.notBeforeUnits st + flagAt 6 (b.load.output st) + pin 7 i
  let level := fun i => (b.input i).level.code
  [(0x00, 1, r.seq.toNat),
   (0x01, 1, r.clamped.toNat % 32 + flagAt 5 b.held + flagAt 6 s.service.permit + 128 * b.optionState.code),
   (0x02, 1, r.torn.toNat % 32 + 32 * s.service.lastResult.code),
   (0x03, 1, r.refused.toNat % 32 + 32 * s.resetKind.code + pin 7 4),
   (0x04, 2, b.alerts.pending.toNat), (0x06, 2, b.alerts.forced.toNat), (0x08, 2, b.alerts.enabled.toNat),
   (0x0A, 1, b.alerts.top.getD 0xFF), (0x0B, 1, b.baseBudget + 32 * b.allowances + pin 7 5),
   (0x0C, 1, b.effectiveBudget + 32 * m.state.code + pin 7 6),
   (0x0D, 1, b.grantedSum + 64 * b.contacts.chord.code),
   (0x0E, 1, b.load.place .a1 + 16 * b.load.place .a2), (0x0F, 1, b.load.place .b1 + 16 * b.load.place .b2),
   (0x10, 1, heater .a1 0), (0x11, 1, heater .a2 1), (0x12, 1, heater .b1 2), (0x13, 1, heater .b2 3),
   (0x14, 1, b.load.pacing), (0x15, 1, m.sagStreak + 8 * m.restoreStreak), (0x16, 1, m.lastAmplitude),
   (0x17, 2, b.inlet.lastRaw % 1024 + 1024 * b.inlet.code + pin 12 8 + pin 13 9 + pin 14 10 + pin 15 11),
   (0x19, 1, smallWord b.inlet.translated), (0x1A, 1, smallWord b.inlet.filtered),
   (0x1B, 1, level 0 + 4 * level 1 + 16 * level 2 + 64 * level 3),
   (0x1C, 1, level 4 + 4 * level 5 + 16 * level 6 + 64 * level 7),
   (0x1D, 1, level 8 + 4 * level 9 + 16 * level 10 + 64 * level 11),
   (0x1E, 2, b.contacts.chordTimer + 2048 * s.service.collided + pin 15 7)]

theorem commonReport_eq (s : State) : commonReport s = rowBytes (commonRows s) := by
  unfold commonReport commonRows
  simp only [temperatureByte_eq, stageByte, levelsByte, List.cons_append, List.nil_append, List.append_assoc]
  simp only [rowBytes_cons, rowBytes_nil, List.append_nil]
  simp only [toLe_one]
  simp only [List.cons_append, List.nil_append]
  rw [byteOf_toNat s.path.resultCommon.seq]

theorem commonRows_tiles (s : State) : Tiles 0 (commonRows s) := by
  simp [Tiles, commonRows]

/-! ## The fault list record (R179) -/

theorem entryBytes_length (e : FaultEntry) : (entryBytes e).length = 6 := by
  simp [entryBytes, toLe_length]

/-- Sixes of bytes one after the other, and some bytes after them. -/
theorem entries_at (faults : List FaultEntry) (after : List Byte) (i : Nat) :
    ((faults.flatMap entryBytes ++ after).drop (6 * i)).take 6 =
      (faults[i]?.map entryBytes).getD ((after.drop (6 * (i - faults.length))).take 6) := by
  induction faults generalizing i with
  | nil => rfl
  | cons e rest ih =>
    rw [List.flatMap_cons, List.append_assoc]
    cases i with
    | zero =>
      rw [List.drop_zero, List.take_append_of_le_length (by rw [entryBytes_length]),
        List.take_of_length_le (by rw [entryBytes_length])]
      rfl
    | succ i =>
      have past : 6 * (i + 1) = (entryBytes e).length + 6 * i := by rw [entryBytes_length]; omega
      rw [past, List.drop_length_add_append, ih, List.getElem?_cons_succ, List.length_cons, Nat.add_sub_add_right]

/-- The slots of the fault list record. -/
theorem faultReport_at (faults : List FaultEntry) {i : Nat} (slot : i < 16) :
    ((faultReport faults).drop (6 * i)).take 6 =
      match faults[i]? with
      | none => List.replicate 6 0xFF
      | some e => entryBytes e := by
  have length : (faults.flatMap entryBytes).length = 6 * faults.length := by
    simp [List.length_flatMap, entryBytes_length, Nat.mul_comm]
  unfold faultReport
  dsimp only
  rw [List.drop_take, List.take_take, min_eq_left (by omega), entries_at, length, List.drop_replicate, List.take_replicate]
  cases used : faults[i]? with
  | some e => rfl
  | none =>
    have free := List.getElem?_eq_none_iff.1 used
    rw [min_eq_left (by omega)]
    rfl

theorem faultReport_length (faults : List FaultEntry) : (faultReport faults).length = 96 := by
  simp only [faultReport, List.length_take, List.length_append, List.length_replicate]
  omega

theorem liveRecord_pocket (s : State) (p : Pocket) :
    liveRecord s (.pocket p) = pocketReport (s.blocks.pocket p) (s.path.result (.pocket p)) := by cases p <;> rfl

theorem rowBytes_holds {rows : List (Nat × Nat × Nat)} (tiles : Tiles 0 rows) {off size v : Nat}
    (mem : (off, size, v) ∈ rows) : ((rowBytes rows).drop off).take size = toLe size v :=
  rowBytes_at (before := []) tiles mem

/-- Settles O18: the bytes of each layout, read where the address lies. -/
theorem fetchReturnsReportOrRam : Obligations.FetchReturnsReportOrRam := by
  refine ⟨fun s addr n ends powered access interprets => ?_, fun s => ?_⟩
  · intro byteAt
    have fetched : ∀ i, fetchedByte s (startAddress addr + BitVec.ofNat 17 i) = byteAt i := by
      intro i
      have kept : ∀ r v, (Snapshots.none.get r).getD v = v := by rintro ((_ | _) | _ | _) v <;> rfl
      rw [fetchedByte, if_pos interprets, byteFrom]
      simp only [kept]
      rfl
    rw [exec_fetchFrame powered access, State.fetchAnswer_eq]
    simp only [fetched]
  · intro state fault bit heat small holds
    refine ⟨fun p => ?_, ?_, fun _ => ⟨faultReport_length _, fun i slot => ?_⟩⟩
    · intro u c d r left stage
      rw [liveRecord_pocket, pocketReport_eq]
      refine ⟨by simp [rowBytes, pocketRows, toLe_length], fun off size v mem => rowBytes_holds (pocketRows_tiles ..) ?_⟩
      simp only [pocketRows, PocketUnit.flags, CycleState.code_eq, Lockout.code_eq, EndFlag.code_eq, ActionResult.code_eq,
        DrumState.code_eq, DrumRequest.code_eq, drumFaultCode_eq, StageState.code_eq, Channel.code_eq, Direction.isRev_eq]
      exact mem
    · intro b r m pin level place notBefore heater
      have same : liveRecord s .common = rowBytes (commonRows s) := commonReport_eq s
      rw [same]
      refine ⟨by simp [rowBytes, commonRows, toLe_length], fun off size v mem => rowBytes_holds (commonRows_tiles s) ?_⟩
      simp only [commonRows, CommandResult.code_eq, ResetKind.code_eq, MainsState.code_eq, ChordState.code_eq, Level.code_eq,
        Channel.code_eq, OptionState.flag_eq, LoadShare.place_eq, LoadShare.notBeforeUnits_eq]
      exact mem
    · refine (faultReport_at _ slot).trans ?_
      cases s.blocks.alerts.faults[i]? with
      | none => rfl
      | some e =>
        have entry : entryBytes e =
            [e.serial, byteOf e.cause.number, byteOf ([some Pocket.a, some .b, none].idxOf e.cause.pocketOf),
              byteOf ((e.state.map CycleState.code).getD 0xFF)] ++ toLe 2 e.elapsed := by
          unfold entryBytes
          obtain none | (_ | _) := e.cause.pocketOf <;> rfl
        rw [CycleState.code_eq] at entry
        exact entry

end Sys2Proof.Machine
end

section
/-! SUPPORT. Service accesses at the arbiter: started, ended, cut, given up (R13 to R15, R162 to R164). -/

namespace Sys2Proof.Machine

/-! ## Accesses that start and end -/

theorem State.startAccess_eq (s : State) (acc : Access) :
    s.startAccess acc = { s with path := { s.path with access := some (s.startedAccess acc) } } := by
  have frozen : (readLink s Snapshots.none (startAddress acc.addr)).2 =
      match pageOffset s.blocks.reportBase (startAddress acc.addr) with
      | some off =>
        if substituted s.blocks (reportPlace off).1 then
          Snapshots.none.set (reportPlace off).1 (liveRecord s (reportPlace off).1)
        else .none
      | none => .none := by
    unfold readLink
    cases pageOffset s.blocks.reportBase (startAddress acc.addr) with
    | none => rfl
    | some off =>
      have unkept : Snapshots.none.get (reportPlace off).1 = none := by
        rcases (reportPlace off).1 with (_ | _) | _ | _ <;> rfl
      dsimp only
      rw [unkept]
      split <;> rfl
  unfold State.startAccess State.startedAccess State.modPath
  rw [frozen]
  cases acc.kind with
  | poke => rfl
  | peek => cases pageOffset s.blocks.reportBase (startAddress acc.addr) <;> rfl

/-- An access handed to the arbiter (R13). -/
theorem State.handAccess_eq (s : State) (acc : Access) :
    s.handAccess acc =
      { s with
        path := { s.path with
          access := some (if s.pins.select then { acc with phase := .waiting 0 } else s.startedAccess acc) } } := by
  unfold State.handAccess
  rw [State.startAccess_eq]
  split <;> rfl

theorem State.endAccess_eq (s : State) (acc : Access) (r : CommandResult) (k : Nat) (data : List Byte) :
    s.endAccess acc r k data = s.afterAccess acc r (if r = .collided then k else 0) (accessAnswer acc r k data) := by
  have ended : (if acc.owned then
        (s.modPath fun u => { u with access := none }).modService fun u => u.complete r k (accessAnswer acc r k data)
      else s.modPath fun u => { u with access := none }) =
      { s with
        path := { s.path with access := none }
        service :=
          if acc.owned then s.service.answered r (if r = .collided then k else 0) (accessAnswer acc r k data)
          else s.service } := by
    split <;> rfl
  unfold State.endAccess State.afterAccess
  dsimp only
  rw [ended]
  dsimp only
  generalize (if acc.owned then s.service.answered r (if r = .collided then k else 0) (accessAnswer acc r k data)
    else s.service) = u
  cases held : u.heldAccess with
  | none =>
    have same : u = { u with heldAccess := none } := by rw [← held]
    rw [← same]
  | some next =>
    dsimp only
    rw [State.handAccess_eq]
    rfl

/-- The appliance controller cuts an access in flight after a number of its bytes that is given (R14). -/
theorem State.cutAccess_eq (s : State) (acc : Access) {k : Nat} (few : k ≤ acc.count - 1) :
    ({ s with pins := { s.pins with select := true } } : State).cutAccess acc k = s.afterCut acc k := by
  unfold State.cutAccess
  dsimp only
  rw [min_eq_left few, State.endAccess_eq, if_pos rfl]
  unfold State.afterCut State.pokeBytes State.noteAccess accessFrame accessAnswer
  cases acc.kind <;> rfl

/-- An access in flight that runs to its last byte (R15). -/
theorem State.finishAccess_poke (s : State) {acc : Access} (poke : acc.kind = .poke) (fits : acc.data.length = acc.count) :
    s.finishAccess acc =
      State.afterAccess
        { s with
          ram := writeRamBytes (startAddress acc.addr) acc.data s.ram
          link := { s.link with toRam := s.blocks.storeCode :: addressBytes acc.addr ++ acc.data, toRamCut := [] } }
        acc .ok 0 [0, BitVec.ofNat 8 acc.count] := by
  have whole : acc.data.take acc.count = acc.data := List.take_of_length_le (by omega)
  unfold State.finishAccess
  rw [State.endAccess_eq]
  unfold State.pokeBytes State.noteAccess accessFrame accessAnswer
  simp only [poke, whole, reduceCtorEq, if_false]
  rfl

theorem State.finishAccess_peek (s : State) {acc : Access} (peek : acc.kind = .peek) :
    s.finishAccess acc =
      State.afterAccess
        { s with link := { s.link with toRam := s.blocks.fetchCode :: addressBytes acc.addr, toRamCut := [] } }
        acc .ok 0 (0 :: (readLinkBytes s acc.count acc.snaps (startAddress acc.addr)).1) := by
  unfold State.finishAccess
  rw [State.endAccess_eq]
  unfold State.pokeBytes State.noteAccess accessFrame accessAnswer
  simp only [peek, reduceCtorEq, if_false, if_true]
  rfl

/-! ## What the service line and the arbiter have due at a clock cycle (R13, R159) -/

/-- The data bytes after a count byte, as R161 has them received. -/
theorem dataFits_iff_ite {n : Byte} {data : List Byte} :
    dataFits n data = true ↔ if 1 ≤ n.toNat ∧ n.toNat ≤ 16 then data.length = n.toNat else data = [] := by
  rw [dataFits_iff]
  split <;> simp_all

/-- The commands of R184 with their parameters (R161, R185). -/
theorem receivedCommand_iff {bytes : List Byte} {c : Instr} :
    receivedCommand bytes = some c ↔
      (bytes = [1] ∧ c = .status) ∨
      (∃ a₂ a₁ a₀ n, bytes = [2, a₂, a₁, a₀, n] ∧ c = .peek { addr := a₂ ++ a₁ ++ a₀, busy := false } n) ∨
      (∃ a₂ a₁ a₀ n data, bytes = 3 :: a₂ :: a₁ :: a₀ :: n :: data ∧ dataFits n data = true ∧
        c = .poke { addr := a₂ ++ a₁ ++ a₀, busy := false } n data) ∨
      (bytes = [4] ∧ c = .hold) ∨ (bytes = [5] ∧ c = .release) ∨
      (∃ off n, bytes = [6, off, n] ∧ c = .optRead off n) ∨
      (∃ off n data, bytes = 7 :: off :: n :: data ∧ dataFits n data = true ∧ c = .optWrite off n data) ∨
      (∃ lo hi, bytes = [8, lo, hi] ∧ c = .forceAlert (hi ++ lo)) ∨ (bytes = [9] ∧ c = .resetPart) ∨
      ∃ code, bytes = [code] ∧ ¬(1 ≤ code.toNat ∧ code.toNat ≤ 9) ∧ c = .unknownCommand code := by
  have codeOf : ∀ (code : Byte) (k : Nat), code.toNat = k → k < 256 → code = BitVec.ofNat 8 k := by
    intro code k is small
    apply BitVec.eq_of_toNat_eq
    rw [is, BitVec.toNat_ofNat, Nat.mod_eq_of_lt small]
  constructor
  · intro spelt
    unfold receivedCommand at spelt
    split at spelt
    · cases spelt
    · rename_i code params
      split at spelt
      case h_10 =>
        obtain ⟨unknown, spelt⟩ := Option.ite_none_left_eq_some.1 spelt
        cases spelt
        rw [knownCode, decide_eq_true_iff] at unknown
        iterate 9 right
        exact ⟨code, rfl, unknown, rfl⟩
      case h_11 => cases spelt
      case h_3 | h_7 =>
        rename_i is
        obtain rfl := codeOf _ _ is (by decide)
        obtain ⟨fits, spelt⟩ := Option.ite_none_right_eq_some.1 spelt
        cases spelt
        simp [fits]
      all_goals
        rename_i is
        obtain rfl := codeOf _ _ is (by decide)
        cases spelt
        simp
  · rintro (⟨rfl, rfl⟩ | ⟨a₂, a₁, a₀, n, rfl, rfl⟩ | ⟨a₂, a₁, a₀, n, data, rfl, fits, rfl⟩ | ⟨rfl, rfl⟩ | ⟨rfl, rfl⟩ |
      ⟨off, n, rfl, rfl⟩ | ⟨off, n, data, rfl, fits, rfl⟩ | ⟨lo, hi, rfl, rfl⟩ | ⟨rfl, rfl⟩ | ⟨code, rfl, unknown, rfl⟩)
    case inr.inr.inl => exact if_pos fits
    case inr.inr.inr.inr.inr.inr.inl => exact if_pos fits
    case inr.inr.inr.inr.inr.inr.inr.inr.inr =>
      have foreign : knownCode code = false := decide_eq_false unknown
      unfold receivedCommand
      dsimp only
      split
      case h_10 => rw [foreign, if_neg Bool.false_ne_true]
      case h_11 => contradiction
      all_goals omega
    all_goals rfl

/-- The events of the service line at a clock cycle (R159 to R162, R168). -/
def lineEvents : List Instr := [.partToToolSlot, .gapTimeout, .syncReply, .lineError, .sync, .serviceReset]

/-- The events of the arbiter at a clock cycle (R13). -/
def arbiterEvents : List Instr := [.linkBusy, .serviceAccessStart]

/-- The commands that the service line receives are none of the events of the line or of the arbiter. -/
theorem receivedCommand_isCommand {bytes : List Byte} {c : Instr} (spelt : receivedCommand bytes = some c) :
    c ∉ lineEvents ++ arbiterEvents := by
  rcases receivedCommand_iff.1 spelt with ⟨-, rfl⟩ | ⟨_, _, _, _, -, rfl⟩ | ⟨_, _, _, _, _, -, -, rfl⟩ | ⟨-, rfl⟩ |
    ⟨-, rfl⟩ | ⟨_, _, -, rfl⟩ | ⟨_, _, _, -, -, rfl⟩ | ⟨_, _, -, rfl⟩ | ⟨-, rfl⟩ | ⟨_, -, -, rfl⟩
  all_goals simp [lineEvents, arbiterEvents]

theorem mem_commandDue {u v : ServiceUnit} {c : Instr} :
    c ∈ u.commandDue v ↔
      v.receiver = .receiving ∧ v.command ≠ u.command ∧ v.command.bind receivedCommand = some c := by
  unfold ServiceUnit.commandDue
  split
  · rename_i due
    cases v.command.bind receivedCommand <;> simp [due, eq_comm]
  · rename_i notDue
    simp only [List.not_mem_nil, false_iff]
    exact fun ⟨receiving, grown, _⟩ => notDue ⟨receiving, grown⟩

theorem not_mem_commandDue {u v : ServiceUnit} {c : Instr} (event : c ∈ lineEvents ++ arbiterEvents) :
    c ∉ u.commandDue v := by
  intro due
  obtain ⟨-, -, spelt⟩ := mem_commandDue.1 due
  obtain ⟨bytes, -, spelt⟩ := Option.bind_eq_some_iff.1 spelt
  exact receivedCommand_isCommand spelt event

/-- What a running part's clock cycle on an empty queue leaves. -/
theorem step_cycle {s : State} (run : s.phase = .running) (empty : s.pending = []) :
    step s = .next (s.runCycle.post s.dueTick) := by
  rw [step, empty]
  simp only [State.tick, run]

theorem mem_pending_cycle {s : State} (empty : s.pending = []) {c : Instr} :
    c ∈ (s.runCycle.post s.dueTick).pending ↔
      c ∈ s.service.dueTick s.pins.toolLow ∨ c ∈ s.path.dueTick s.pins.select ∨ c ∈ s.blocks.dueTick s.pins := by
  have joins : (s.runCycle.post s.dueTick).pending = (shuffle s.dueTick.length s.runCycle.blocks.draws s.dueTick).1 := by
    show s.pending ++ _ = _
    rw [empty]
    rfl
  rw [joins, (shuffle_perm _ _ _).mem_iff, State.dueTick, List.mem_append, List.mem_append, or_assoc]

/-! ## Accesses that wait (R13) -/

theorem exec_linkBusy {s : State} (run : s.phase = .running) {acc : Access} (access : s.path.access = some acc) :
    exec .linkBusy s = .next
      (if acc.phase = .waiting 9999 ∧ s.pins.select = true then
        s.afterAccess acc .linkBusy 0
          (match acc.kind with | .peek => 3 :: List.replicate acc.count 0xFF | .poke => [3, 0])
      else s) := by
  have answer : accessAnswer acc .linkBusy 0 [] =
      match acc.kind with | .peek => 3 :: List.replicate acc.count 0xFF | .poke => [3, 0] := by
    unfold accessAnswer
    cases acc.kind <;> rfl
  change Host.Outcome.next _ = _
  rw [State.whileRunning, if_pos run, access, ← answer]
  dsimp only
  rw [State.endAccess_eq]
  rfl

/-- Settles O20: the start and the giving up by their commands, and what the line, the arbiter and the blocks have due at a
clock cycle. -/
theorem waitingAccessStartsOrIsGivenUp : Obligations.WaitingAccessStartsOrIsGivenUp := by
  intro s acc run access
  refine ⟨fun n waits free => ?_, fun last busy => ?_, fun free => ?_, fun n waits empty => ?_⟩
  · change Host.Outcome.next _ = _
    rw [State.whileRunning, if_pos run, access]
    dsimp only
    rw [if_pos ⟨by simp [waits], free⟩, State.startAccess_eq]
  · exact (exec_linkBusy run access).trans (congrArg Host.Outcome.next (if_pos ⟨last, busy⟩))
  · rw [exec_linkBusy run access, if_neg (by simp [free])]
  · have notLine : ∀ c ∈ arbiterEvents, c ∉ s.service.dueTick s.pins.toolLow := by
      intro c arbiter line
      have notReceived : c ∉ s.service.commandDue (s.service.tick s.pins.toolLow) :=
        not_mem_commandDue (List.mem_append_right _ arbiter)
      simp only [ServiceUnit.dueTick, List.mem_append, mem_due, notReceived, or_false] at line
      simp only [arbiterEvents, List.mem_cons, List.not_mem_nil, or_false] at arbiter
      obtain rfl | rfl := arbiter <;> simp at line
    have due : ∀ c ∈ arbiterEvents, (c ∈ (s.runCycle.post s.dueTick).pending ↔
        c ∈ if s.pins.select then due (n == 9999) .linkBusy else [.serviceAccessStart]) := by
      intro c arbiter
      have notBlocks : c ∉ s.blocks.dueTick s.pins := by
        intro blocks
        have timeDue := State.timeDue_of_mem blocks
        simp only [arbiterEvents, List.mem_cons, List.not_mem_nil, or_false] at arbiter
        obtain rfl | rfl := arbiter <;> exact timeDue
      rw [mem_pending_cycle empty]
      simp only [notLine c arbiter, notBlocks, false_or, or_false, PathUnit.dueTick, access, waits]
    refine ⟨_, step_cycle run empty, ?_, ?_, ?_⟩
    · show s.path.access.map _ = _
      rw [access]
      obtain ⟨kind, addr, count, data, phase, owned, snaps⟩ := acc
      obtain rfl : phase = .waiting n := waits
      cases s.pins.select
      · rfl
      · simp only [Option.map_some, if_true, upTo, true_and]
    · rw [due _ (by simp [arbiterEvents])]
      cases s.pins.select <;> simp [mem_due]
    · rw [due _ (by simp [arbiterEvents])]
      cases s.pins.select <;> simp [mem_due]

end Sys2Proof.Machine
end

section
/-! SUPPORT. Service accesses that run, are cut, and are handed over by PEEK and POKE (R13 to R15, R162, R164). -/

namespace Sys2Proof.Machine

/-! ## What a cut leaves (R14) -/

/-- With select active an access that waited for the ended one waits on. -/
theorem State.afterAccess_calm {s : State} (select : s.pins.select = true) (acc : Access) (r : CommandResult) (n : Nat)
    (answer : List Byte) {next : Access} (access : (s.afterAccess acc r n answer).path.access = some next) :
    next.phase ≠ .inFlight := by
  unfold State.afterAccess at access
  dsimp only at access
  split at access
  · cases access
  · rw [if_pos select] at access
    obtain rfl := Option.some.inj access
    simp

theorem State.afterAccess_keeps (s : State) (acc : Access) (r : CommandResult) (n : Nat) (answer : List Byte) :
    (s.afterAccess acc r n answer).phase = s.phase ∧ (s.afterAccess acc r n answer).blocks = s.blocks ∧
      (s.afterAccess acc r n answer).pins = s.pins := by
  unfold State.afterAccess
  dsimp only
  split <;> exact ⟨rfl, rfl, rfl⟩

theorem State.afterCut_keeps (s : State) (acc : Access) (k : Nat) :
    (s.afterCut acc k).phase = s.phase ∧ (s.afterCut acc k).blocks = s.blocks ∧
      (s.afterCut acc k).pins = { s.pins with select := true } := by
  unfold State.afterCut
  cases acc.kind <;> exact State.afterAccess_keeps ..

theorem State.afterCut_calm (s : State) (acc : Access) (k : Nat) {next : Access}
    (access : (s.afterCut acc k).path.access = some next) : next.phase ≠ .inFlight := by
  unfold State.afterCut at access
  cases kind : acc.kind <;> rw [kind] at access <;> exact State.afterAccess_calm rfl _ _ _ _ access

/-! ## The appliance controller asserts select (R14) -/

section

variable {s : State} {acc : Access}

theorem State.assertSelect_cut (access : s.path.access = some acc) (inFlight : acc.phase = .inFlight) {k : Nat}
    (few : k ≤ acc.count - 1) : s.assertSelect (some k) = s.afterCut acc k := by
  unfold State.assertSelect
  simp only [access, inFlight, if_true]
  exact State.cutAccess_eq s acc few

/-- A frame that names no count cuts after a number of bytes that is free (log entry 4). -/
theorem State.assertSelect_free (access : s.path.access = some acc) (inFlight : acc.phase = .inFlight) :
    ∃ k, k ≤ acc.count - 1 ∧
      s.assertSelect none = { s.afterCut acc k with blocks := { s.blocks with draws := s.blocks.draws + 1 } } := by
  have few : s.blocks.drawCount (acc.count - 1) ≤ acc.count - 1 := Nat.lt_succ_iff.1 (Nat.mod_lt _ (Nat.succ_pos _))
  refine ⟨_, few, ?_⟩
  obtain ⟨-, blocks, -⟩ := s.afterCut_keeps acc (s.blocks.drawCount (acc.count - 1))
  calc s.assertSelect none
      = (State.cutAccess { s with pins := { s.pins with select := true } } acc
          (s.blocks.drawCount (acc.count - 1))).modBlocks fun b => { b with draws := b.draws + 1 } := by
        unfold State.assertSelect
        simp only [access, inFlight, if_true]
    _ = (s.afterCut acc (s.blocks.drawCount (acc.count - 1))).modBlocks fun b => { b with draws := b.draws + 1 } := by
        rw [State.cutAccess_eq s acc few]
    _ = _ := by
        rw [State.modBlocks, blocks]

theorem State.assertSelect_of_calm (calm : ∀ acc, s.path.access = some acc → acc.phase ≠ .inFlight) (k : Option Nat) :
    s.assertSelect k = { s with pins := { s.pins with select := true } } := by
  unfold State.assertSelect
  cases access : s.path.access with
  | none => simp only [access]
  | some acc => simp only [access, if_neg (calm acc access)]

theorem State.assertSelect_of_selected (calm : ∀ acc, s.path.access = some acc → acc.phase ≠ .inFlight)
    (select : s.pins.select = true) (k : Option Nat) : s.assertSelect k = s := by
  rw [State.assertSelect_of_calm calm, ← select]

/-! ## The frame of the appliance controller -/

theorem addressOf_addressBytes (addr : BitVec 24) (data : List Byte) : addressOf (addressBytes addr ++ data) = addr := by
  show (addr >>> 16).setWidth 8 ++ (addr >>> 8).setWidth 8 ++ addr.setWidth 8 = addr
  apply BitVec.eq_of_getLsbD_eq
  intro i small
  simp only [BitVec.getLsbD_append, BitVec.getLsbD_setWidth, BitVec.getLsbD_ushiftRight]
  by_cases low : i < 8
  · simp [low]
  · by_cases middle : i < 16
    · have place : 8 + (i - 8) = i := by omega
      have inside : i - 8 < 8 := by omega
      simp [low, place, inside]
    · have place : 16 + (i - 8 - 8) = i := by omega
      have inside : ¬ i - 8 < 8 := by omega
      have top : i - 8 - 8 < 8 := by omega
      simp [low, place, inside, top]

theorem classifyFrame_store (b : Blocks) (addr : BitVec 24) (data : List Byte) :
    classifyFrame b (b.storeCode :: addressBytes addr ++ data) = .store := by
  simp [classifyFrame, addressBytes]

theorem classifyFrame_fetch {b : Blocks} (apart : b.fetchCode ≠ b.storeCode) (addr : BitVec 24) (data : List Byte) :
    classifyFrame b (b.fetchCode :: addressBytes addr ++ data) = .fetch := by
  simp [classifyFrame, addressBytes, apart]

/-- A frame that cuts an access begins as on the state that the cut leaves. -/
theorem State.beginFrame_cut (access : s.path.access = some acc) (inFlight : acc.phase = .inFlight) :
    ∃ k, k ≤ acc.count - 1 ∧
      s.beginFrame =
        ({ s.afterCut acc k with blocks := { s.blocks with draws := s.blocks.draws + 1 } } : State).beginFrame := by
  obtain ⟨k, few, cut⟩ := State.assertSelect_free access inFlight
  obtain ⟨-, -, pins⟩ := s.afterCut_keeps acc k
  refine ⟨k, few, ?_⟩
  have select : (s.afterCut acc k).pins.select = true := by rw [pins]
  have stays := State.assertSelect_of_selected
    (s := { s.afterCut acc k with blocks := { s.blocks with draws := s.blocks.draws + 1 } })
    (fun _ => s.afterCut_calm acc k) select none
  unfold State.beginFrame
  rw [cut, stays]

end

/-- Settles O21: the access ends by R15 or is cut by R14, and the controller's frame meets the state that the cut
leaves. -/
theorem startedAccessRunsOrIsCut : Obligations.StartedAccessRunsOrIsCut := by
  intro s acc run access inFlight
  have powered : s.phase ≠ .off := by simp [run]
  have completes : exec .serviceAccessComplete s = .next (s.finishAccess acc) := by
    change Host.Outcome.next _ = _
    rw [State.whileRunning, if_pos run, access]
    exact congrArg Host.Outcome.next (if_pos inFlight)
  have collides : ∀ {k : Nat}, k < acc.count → ∀ bytes ends answer,
      exec (.serviceAccessCollided k bytes ends answer) s = .next ((s.afterCut acc k).passFrame bytes ends answer) := by
    intro k few bytes ends answer
    change Host.Outcome.next _ = _
    rw [State.whilePowered, if_neg powered, State.assertSelect_cut access inFlight (by omega)]
  refine ⟨fun poke fits => ?_, fun peek => ?_, fun k code rest ends answer few notStore notFetch => ?_,
    fun k addr data ends answer few => ⟨?_, fun apart => ?_⟩, fun nonempty addr data ends n bits => ?_⟩
  · rw [completes, State.finishAccess_poke s poke fits]
  · refine ⟨_, completes.trans (congrArg Host.Outcome.next (State.finishAccess_peek s peek)), ?_, fun i below => ?_⟩
    · rw [readLinkBytes_eq, List.length_map, List.length_range]
    · rw [readLinkBytes_eq, List.getElem?_map, List.getElem?_range below]
      rfl
  · obtain ⟨-, blocks, -⟩ := s.afterCut_keeps acc k
    rw [collides few, State.passFrame, blocks, classifyFrame_opaque rest notStore notFetch, State.passOpaque,
      State.beginFrame_of_calm fun next => s.afterCut_calm acc k]
    rfl
  · obtain ⟨phase, blocks, -⟩ := s.afterCut_keeps acc k
    rw [collides few, exec_storeFrame (by rw [phase]; exact powered), State.passFrame, blocks, classifyFrame_store]
    exact congrArg (fun a => Host.Outcome.next ((s.afterCut acc k).passStore a data ends)) (addressOf_addressBytes addr data)
  · obtain ⟨phase, blocks, -⟩ := s.afterCut_keeps acc k
    have fetches : exec (.fetchFrame addr data.length { cut := ends.cut.length, again := ends.again }) (s.afterCut acc k) =
        .next ((s.afterCut acc k).passFetch addr data.length { cut := ends.cut.length, again := ends.again }) := by
      change Host.Outcome.next _ = _
      rw [State.whilePowered, if_neg (by rw [phase]; exact powered)]
    rw [collides few, fetches, State.passFrame, blocks, classifyFrame_fetch apart]
    exact congrArg (fun a => Host.Outcome.next ((s.afterCut acc k).passFetch a data.length _))
      (addressOf_addressBytes addr data)
  · obtain ⟨k, few, begins⟩ := State.beginFrame_cut access inFlight
    refine ⟨k, by omega, ?_⟩
    intro t
    obtain ⟨phase, -, -⟩ := s.afterCut_keeps acc k
    have poweredThen : t.phase ≠ .off := by
      show (s.afterCut acc k).phase ≠ .off
      rw [phase]
      exact powered
    constructor
    · rw [exec_storeFrame powered, exec_storeFrame poweredThen, State.passStore, State.passStore, begins]
    · change Host.Outcome.next _ = Host.Outcome.next _
      rw [State.whilePowered, State.whilePowered, if_neg powered, if_neg poweredThen, State.passFetch, State.passFetch,
        begins]

/-! ## Accesses of commands (R164) -/

/-- A new access at the arbiter: behind one that stands there, started, or waiting. -/
def State.handed (m : State) (acc : Access) : State :=
  match m.path.access with
  | some _ => { m with service := { m.service with heldAccess := some acc } }
  | none => { m with path := { m.path with access := some (if m.pins.select then acc else m.startedAccess acc) } }

theorem State.submitAccess_eq (m : State) {acc : Access} (fresh : acc.phase = .waiting 0) :
    m.submitAccess acc = m.handed acc := by
  have same : { acc with phase := .waiting 0 } = acc := by rw [← fresh]
  unfold State.submitAccess State.handed
  cases m.path.access with
  | some old => rfl
  | none =>
    rw [State.handAccess_eq, same]
    rfl

/-- The link as a command finds it (R14; log entries 4 and 42). -/
def State.meets (s m : State) (busy : Bool) : Prop :=
  match s.path.access with
  | some old =>
    if busy = true ∧ old.phase = .inFlight then
      ∃ k, k ≤ old.count - 1 ∧
        m = { s.afterCut old k with blocks := { s.blocks with draws := s.blocks.draws + 1 } }
    else m = { s with pins := { s.pins with select := s.pins.select || busy } }
  | none => m = { s with pins := { s.pins with select := s.pins.select || busy } }

theorem State.meetLink_meets (s : State) (busy : Bool) : s.meets (s.meetLink busy) busy := by
  have still : s.meetLink false = { s with pins := { s.pins with select := s.pins.select || false } } := by
    rw [Bool.or_false]
    rfl
  have calmly : (∀ acc, s.path.access = some acc → acc.phase ≠ .inFlight) →
      s.meetLink true = { s with pins := { s.pins with select := s.pins.select || true } } := by
    intro calm
    rw [Bool.or_true]
    exact State.assertSelect_of_calm calm none
  unfold State.meets
  cases access : s.path.access with
  | none =>
    cases busy
    · exact still
    · exact calmly (by simp [access])
  | some old =>
    dsimp only
    split
    · rename_i cut
      obtain ⟨rfl, inFlight⟩ := cut
      exact State.assertSelect_free access inFlight
    · rename_i notCut
      cases busy
      · exact still
      · refine calmly fun acc is inFlight => notCut ⟨rfl, ?_⟩
        rw [access] at is
        rw [Option.some.inj is]
        exact inFlight

theorem State.meetLink_held (s : State) (busy : Bool) : (s.meetLink busy).blocks.held = s.blocks.held := by
  have meets := s.meetLink_meets busy
  unfold State.meets at meets
  split at meets
  · split at meets
    · obtain ⟨k, -, is⟩ := meets
      rw [is]
    · rw [meets]
  · rw [meets]

/-- Settles O55: the link as the command finds it, and the access handed over or held back on it. -/
theorem peekAndPokeGoToTheArbiter : Obligations.PeekAndPokeGoToTheArbiter := by
  intro s addr n data busy peek poke target begun found handed refused peekBytes pokeBytes inRange
  refine ⟨fun takes => ?_, fun takes fits => ?_⟩
  · refine ⟨(begun peekBytes).meetLink busy, (begun peekBytes).meetLink_meets busy, ?_⟩
    change Host.Outcome.next (s.execute peekBytes _) = _
    rw [State.execute_of_takes takes]
    refine congrArg Host.Outcome.next ?_
    by_cases counted : inRange
    · rw [if_pos counted]
      exact (if_pos (countInRange_iff.2 counted)).trans (State.submitAccess_eq _ rfl)
    · rw [if_neg counted]
      exact (if_neg fun is => counted (countInRange_iff.1 is)).trans (State.completeCommand_eq _)
  · refine ⟨(begun pokeBytes).meetLink busy, (begun pokeBytes).meetLink_meets busy, ?_⟩
    change Host.Outcome.next (if dataFits n data then s.execute pokeBytes _ else s) = _
    have carried : (countInRange n && ((begun pokeBytes).meetLink busy).blocks.held) = true ↔
        inRange ∧ s.blocks.held = true := by
      rw [State.meetLink_held, Bool.and_eq_true, countInRange_iff]
    rw [if_pos (dataFits_iff.2 fits), State.execute_of_takes takes]
    refine congrArg Host.Outcome.next ?_
    by_cases allowed : inRange ∧ s.blocks.held = true
    · rw [if_pos allowed]
      exact (if_pos (carried.2 allowed)).trans (State.submitAccess_eq _ rfl)
    · rw [if_neg allowed]
      exact (if_neg fun is => allowed (carried.1 is)).trans (State.completeCommand_eq _)

end Sys2Proof.Machine
end

section
/-! SUPPORT. The service line's slots and its clock cycle (R159 to R162, R168). -/

namespace Sys2Proof.Machine

/-! ## Part-to-tool slots (R159, R161) -/

section

variable {u : ServiceUnit}

theorem ServiceUnit.sendSlot_executing (executing : u.receiver = .executing) {completed : Bool}
    (answer : u.answer.isSome = completed) :
    u.sendSlot =
      { u with
        slotTimer := 0, gapTimer := 0, sentBit := some completed, driveFor := if completed then 0 else 20 } := by
  unfold ServiceUnit.sendSlot
  simp only [executing, answer]

theorem ServiceUnit.sendSlot_answering (answering : u.receiver = .answering) {bit : Bool} {rest : List Bool}
    (answer : u.answer = some (bit :: rest)) :
    u.sendSlot =
      { u with
        slotTimer := 0, gapTimer := 0, sentBit := some bit, driveFor := if bit then 0 else 20, answer := some rest } := by
  unfold ServiceUnit.sendSlot
  simp only [answering, answer]

theorem ServiceUnit.sendSlot_awaitSync (waits : u.receiver = .awaitSync) :
    u.sendSlot = { u with slotTimer := 0, gapTimer := 0 } := by
  unfold ServiceUnit.sendSlot ServiceUnit.startSlot
  simp only [waits]

/-! ## The slot's end and the next slot's edge -/

/-- The unit once its timers have counted and its slot has ended, if the cycle is the slot's last. -/
theorem ServiceUnit.advance_eq (u : ServiceUnit) :
    u.advance = if 31 ≤ u.slotTimer then u.countCycle.endSlot else u.countCycle := by
  have last : u.countCycle.slotTimer = 32 ↔ 31 ≤ u.slotTimer := by
    show satSucc 32 u.slotTimer = 32 ↔ _
    rw [satSucc_eq_min]
    omega
  unfold ServiceUnit.advance
  simp only [last]

/-- A slot's end changes nothing in a receiver that sends no answer. -/
theorem ServiceUnit.advance_of_idle (idle : u.receiver ≠ .executing) (idle' : u.receiver ≠ .answering) :
    u.advance = u.countCycle := by
  have ended : u.countCycle.endSlot = u.countCycle := by
    unfold ServiceUnit.endSlot
    rw [show u.countCycle.receiver = u.receiver from rfl]
    cases receiver : u.receiver <;> simp_all
  rw [ServiceUnit.advance_eq, ended, ite_self]

theorem ServiceUnit.advance_of_executing (executing : u.receiver = .executing) :
    u.advance =
      { u.countCycle with
        receiver := if 31 ≤ u.slotTimer ∧ u.sentBit = some true then .answering else .executing } := by
  have ended : u.countCycle.endSlot =
      { u.countCycle with receiver := if u.sentBit = some true then .answering else .executing } := by
    unfold ServiceUnit.endSlot
    rw [show u.countCycle.receiver = .executing from executing]
    show (if u.sentBit = some true then _ else _) = _
    split
    · rfl
    · rw [← executing]
      rfl
  rw [ServiceUnit.advance_eq, ended]
  by_cases ends : 31 ≤ u.slotTimer
  · simp only [ends, if_true, true_and]
  · simp only [ends, if_false, false_and]
    rw [← executing]
    rfl

theorem ServiceUnit.advance_of_answering (answering : u.receiver = .answering) {bit : Bool} {rest : List Bool}
    (answer : u.answer = some (bit :: rest)) : u.advance = u.countCycle := by
  have ended : u.countCycle.endSlot = u.countCycle := by
    unfold ServiceUnit.endSlot
    rw [show u.countCycle.receiver = .answering from answering, show u.countCycle.answer = some (bit :: rest) from answer]
  rw [ServiceUnit.advance_eq, ended, ite_self]

theorem ServiceUnit.advance_of_answered (answering : u.receiver = .answering) (sent : u.answer.getD [] = []) :
    u.advance =
      if 31 ≤ u.slotTimer then
        { u.countCycle with receiver := .ready, command := none, answer := none, resetDue := u.command == some [9] }
      else u.countCycle := by
  have ended : u.countCycle.endSlot =
      { u.countCycle with receiver := .ready, command := none, answer := none, resetDue := u.command == some [9] } := by
    unfold ServiceUnit.endSlot
    rw [show u.countCycle.receiver = .answering from answering, show u.countCycle.answer = u.answer from rfl]
    cases answer : u.answer with
    | none => rfl
    | some bits =>
      obtain rfl : bits = [] := by simpa [answer] using sent
      rfl
  rw [ServiceUnit.advance_eq, ended]

/-- What the slot's end leaves of the line. -/
theorem ServiceUnit.advance_keeps (u : ServiceUnit) :
    u.advance =
      { u.countCycle with
        receiver := u.advance.receiver, command := u.advance.command, answer := u.advance.answer
        resetDue := u.advance.resetDue } := by
  by_cases executing : u.receiver = .executing
  · rw [ServiceUnit.advance_of_executing executing]
  · by_cases answering : u.receiver = .answering
    · rcases sent : u.answer.getD [] with _ | ⟨bit, rest⟩
      · rw [ServiceUnit.advance_of_answered answering sent]
        split <;> rfl
      · have answer : u.answer = some (bit :: rest) := by
          cases is : u.answer <;> simp_all
        rw [ServiceUnit.advance_of_answering answering answer]
    · rw [ServiceUnit.advance_of_idle executing answering]

end

/-! ## The clock cycle of the line (R159, R160) -/

/-- The line falls at this cycle. -/
def ServiceUnit.falls (u : ServiceUnit) (toolLow : Bool) : Bool := u.lineIsLow toolLow && !u.lineLow

/-- The unit after the edge of a cycle, if there is one, has begun a slot. -/
def ServiceUnit.afterEdge (u : ServiceUnit) (toolLow : Bool) : ServiceUnit :=
  if u.falls toolLow && u.advance.slotTimer == 32 then u.advance.startSlot else u.advance

section

variable (u : ServiceUnit) (toolLow : Bool)

theorem ServiceUnit.lineIsLow_iff {u : ServiceUnit} {toolLow : Bool} :
    u.lineIsLow toolLow = true ↔ toolLow = true ∨ 0 < u.driveFor ∨ (u.receiver = .syncReply ∧ 16 ≤ u.replyTimer) := by
  simp [ServiceUnit.lineIsLow, or_assoc]

theorem ServiceUnit.falls_iff {u : ServiceUnit} {toolLow : Bool} :
    u.falls toolLow = true ↔ u.lineIsLow toolLow = true ∧ u.lineLow = false := by
  simp [ServiceUnit.falls]

theorem ServiceUnit.advance_slotTimer : u.advance.slotTimer = min 32 (u.slotTimer + 1) := by
  rw [ServiceUnit.advance_keeps]
  exact satSucc_eq_min 32 u.slotTimer

theorem ServiceUnit.advance_last {u : ServiceUnit} : u.advance.slotTimer = 32 ↔ 31 ≤ u.slotTimer := by
  rw [ServiceUnit.advance_slotTimer]
  omega

theorem ServiceUnit.advance_gapTimer :
    u.advance.gapTimer =
      if u.receiver.inCommand then (if u.gapTimer < 1024 then u.gapTimer + 1 else u.gapTimer)
      else min 1025 (u.gapTimer + 1) := by
  rw [ServiceUnit.advance_keeps, ← satSucc_eq_min]
  rfl

theorem ServiceUnit.advance_receiver :
    u.advance.receiver =
      if u.receiver = .executing ∧ 31 ≤ u.slotTimer ∧ u.sentBit = some true then .answering
      else if u.receiver = .answering ∧ u.answer.getD [] = [] ∧ 31 ≤ u.slotTimer then .ready
      else u.receiver := by
  by_cases executing : u.receiver = .executing
  · rw [ServiceUnit.advance_of_executing executing]
    simp [executing]
  · by_cases answering : u.receiver = .answering
    · rcases sent : u.answer.getD [] with _ | ⟨bit, rest⟩
      · rw [ServiceUnit.advance_of_answered answering sent]
        split <;> simp [ServiceUnit.countCycle, *]
      · have answer : u.answer = some (bit :: rest) := by
          cases is : u.answer <;> simp_all
        rw [ServiceUnit.advance_of_answering answering answer]
        simp [answering, ServiceUnit.countCycle]
    · rw [ServiceUnit.advance_of_idle executing answering]
      simp [executing, answering, ServiceUnit.countCycle]

/-- What a slot's end finds ready for a command: a receiver that was, or one whose answer is out (R161). -/
theorem ServiceUnit.advance_ready {u : ServiceUnit} (ends : 31 ≤ u.slotTimer) :
    u.advance.receiver = .ready ↔ u.receiver = .ready ∨ (u.receiver = .answering ∧ u.answer.getD [] = []) := by
  rw [ServiceUnit.advance_receiver]
  cases receiver : u.receiver <;> simp [ends]
  split <;> simp

/-- What a slot's end leaves sending: a receiver that holds its line low, or one with answer bits left (R161). -/
theorem ServiceUnit.advance_sends {u : ServiceUnit} (ends : 31 ≤ u.slotTimer) :
    u.advance.receiver = .executing ∨ u.advance.receiver = .answering ↔
      u.receiver = .executing ∨ ∃ bit rest, u.receiver = .answering ∧ u.answer = some (bit :: rest) := by
  rw [ServiceUnit.advance_receiver]
  cases receiver : u.receiver with
  | executing =>
    simp only [ends, true_and, reduceCtorEq, false_and, if_false, true_or, iff_true]
    split <;> simp
  | answering =>
    rcases answer : u.answer with _ | _ | ⟨bit, rest⟩ <;> simp [ends]
  | awaitSync | syncReply | ready | receiving => simp

/-- An edge past a slot's end begins the next in a receiver that receives (R159). -/
theorem ServiceUnit.advance_receives {u : ServiceUnit} (ends : 31 ≤ u.slotTimer) :
    u.advance.receiver = .ready ∨ u.advance.receiver = .receiving ∨ u.advance.receiver = .awaitSync ↔
      u.receiver = .ready ∨ u.receiver = .receiving ∨ u.receiver = .awaitSync ∨
        (u.receiver = .answering ∧ u.answer.getD [] = []) := by
  rw [ServiceUnit.advance_receiver]
  cases receiver : u.receiver with
  | executing =>
    simp only [ends, true_and, reduceCtorEq, false_and, if_false]
    split <;> simp
  | answering =>
    rcases answer : u.answer with _ | _ | ⟨bit, rest⟩ <;> simp [ends]
  | awaitSync | syncReply | ready | receiving => simp

theorem ServiceUnit.startSlot_keeps :
    u.startSlot =
      { u with
        receiver := if u.receiver = .ready then .receiving else u.receiver
        command := if u.receiver = .ready then none else u.command
        bits := if u.receiver = .ready then [] else u.bits
        slotTimer := if u.receiver = .ready ∨ u.receiver = .receiving ∨ u.receiver = .awaitSync then 0 else u.slotTimer
        gapTimer :=
          if u.receiver = .ready ∨ u.receiver = .receiving ∨ u.receiver = .awaitSync then 0 else u.gapTimer } := by
  rcases u with ⟨_ | _ | _ | _ | _ | _⟩ <;> rfl

/-- The unit once the cycle's bit has been counted, if there is one. -/
def ServiceUnit.afterCount : ServiceUnit :=
  if u.receiver = .receiving ∧ (u.afterEdge toolLow).slotTimer = 12 then
    (u.afterEdge toolLow).countBit (u.lineIsLow toolLow)
  else u.afterEdge toolLow

theorem ServiceUnit.afterCount_keeps :
    u.afterCount toolLow =
      { u.afterEdge toolLow with
        bits := (u.afterCount toolLow).bits, command := (u.afterCount toolLow).command } := by
  have counted : ∀ (v : ServiceUnit) (low : Bool),
      v.countBit low = { v with bits := (v.countBit low).bits, command := (v.countBit low).command } := by
    intro v low
    unfold ServiceUnit.countBit
    dsimp only
    split <;> rfl
  unfold ServiceUnit.afterCount
  split
  · exact counted _ _
  · rfl

/-- An edge of this cycle begins a slot in a receiver that begins one by itself (R159). -/
abbrev ServiceUnit.restarts : Prop :=
  u.falls toolLow = true ∧ 31 ≤ u.slotTimer ∧
    (u.advance.receiver = .ready ∨ u.advance.receiver = .receiving ∨ u.advance.receiver = .awaitSync)

/-- The unit where no edge begins a slot. -/
theorem ServiceUnit.afterEdge_of_still {u : ServiceUnit} {toolLow : Bool}
    (still : ¬(u.falls toolLow = true ∧ 31 ≤ u.slotTimer)) : u.afterEdge toolLow = u.advance := by
  unfold ServiceUnit.afterEdge
  rw [if_neg]
  rw [Bool.and_eq_true, beq_iff_eq, ServiceUnit.advance_last]
  exact still

theorem ServiceUnit.afterEdge_of_edge {u : ServiceUnit} {toolLow : Bool}
    (falls : u.falls toolLow = true) (ends : 31 ≤ u.slotTimer) : u.afterEdge toolLow = u.advance.startSlot := by
  unfold ServiceUnit.afterEdge
  rw [if_pos]
  rw [Bool.and_eq_true, beq_iff_eq, ServiceUnit.advance_last]
  exact ⟨falls, ends⟩

theorem ServiceUnit.afterEdge_keeps :
    u.afterEdge toolLow =
      { u.advance with
        receiver :=
          if u.falls toolLow = true ∧ 31 ≤ u.slotTimer ∧ u.advance.receiver = .ready then .receiving
          else u.advance.receiver
        command :=
          if u.falls toolLow = true ∧ 31 ≤ u.slotTimer ∧ u.advance.receiver = .ready then none else u.advance.command
        bits := if u.falls toolLow = true ∧ 31 ≤ u.slotTimer ∧ u.advance.receiver = .ready then [] else u.advance.bits
        slotTimer := if u.restarts toolLow then 0 else u.advance.slotTimer
        gapTimer := if u.restarts toolLow then 0 else u.advance.gapTimer } := by
  by_cases edge : u.falls toolLow = true ∧ 31 ≤ u.slotTimer
  · obtain ⟨falls, ends⟩ := edge
    rw [ServiceUnit.afterEdge_of_edge falls ends, ServiceUnit.startSlot_keeps]
    simp only [ServiceUnit.restarts, falls, ends, true_and]
  · have noEdge : ∀ {q : Prop}, ¬(u.falls toolLow = true ∧ 31 ≤ u.slotTimer ∧ q) :=
      fun ⟨falls, ends, _⟩ => edge ⟨falls, ends⟩
    rw [ServiceUnit.afterEdge_of_still edge]
    simp only [ServiceUnit.restarts, noEdge, if_false]

end

theorem ServiceUnit.tick_receiver (u : ServiceUnit) (toolLow : Bool) :
    (u.tick toolLow).receiver =
      if u.falls toolLow = true ∧ 31 ≤ u.slotTimer ∧ u.advance.receiver = .ready then .receiving
      else u.advance.receiver := by
  show (u.afterCount toolLow).receiver = _
  rw [ServiceUnit.afterCount_keeps, ServiceUnit.afterEdge_keeps]

theorem ServiceUnit.tick_receiver_of_busy {u : ServiceUnit} (toolLow : Bool) (busy : u.advance.receiver ≠ .ready) :
    (u.tick toolLow).receiver = u.advance.receiver := by
  rw [ServiceUnit.tick_receiver, if_neg fun ⟨_, _, ready⟩ => busy ready]

theorem ServiceUnit.afterEdge_command (u : ServiceUnit) (toolLow : Bool) :
    (u.afterEdge toolLow).command =
        (if u.falls toolLow = true ∧ 31 ≤ u.slotTimer ∧ u.advance.receiver = .ready then none else u.advance.command) ∧
      (u.afterEdge toolLow).bits =
        if u.falls toolLow = true ∧ 31 ≤ u.slotTimer ∧ u.advance.receiver = .ready then [] else u.advance.bits := by
  rw [ServiceUnit.afterEdge_keeps]
  exact ⟨rfl, rfl⟩

/-- No bit is counted but at cycle 12 of a slot in RECEIVING (R159). -/
theorem ServiceUnit.tick_bits_of_quiet {u : ServiceUnit} (toolLow : Bool)
    (quiet : u.receiver ≠ .receiving ∨ u.slotTimer ≠ 11) :
    (u.tick toolLow).bits = (u.afterEdge toolLow).bits ∧ (u.tick toolLow).command = (u.afterEdge toolLow).command := by
  have last : (u.afterEdge toolLow).slotTimer = 12 → u.slotTimer = 11 := by
    rw [ServiceUnit.afterEdge_keeps, ServiceUnit.advance_slotTimer]
    intro twelve
    dsimp only at twelve
    split at twelve <;> omega
  have still : u.afterCount toolLow = u.afterEdge toolLow :=
    if_neg fun ⟨receiving, twelve⟩ => quiet.elim (fun other => other receiving) fun other => other (last twelve)
  exact ⟨(congrArg ServiceUnit.bits still :), (congrArg ServiceUnit.command still :)⟩

theorem ServiceUnit.tick_answer (u : ServiceUnit) (toolLow : Bool) :
    (u.tick toolLow).answer = u.advance.answer ∧ (u.tick toolLow).resetDue = u.advance.resetDue := by
  constructor
  · show (u.afterCount toolLow).answer = _
    rw [ServiceUnit.afterCount_keeps, ServiceUnit.afterEdge_keeps]
  · show (u.afterCount toolLow).resetDue = _
    rw [ServiceUnit.afterCount_keeps, ServiceUnit.afterEdge_keeps]

/-- `v` with the items of `w` that slots, bits and the line's level move. -/
def ServiceUnit.withSlots (v w : ServiceUnit) : ServiceUnit :=
  { v with
    receiver := w.receiver, slotTimer := w.slotTimer, gapTimer := w.gapTimer, command := w.command, answer := w.answer
    bits := w.bits, resetDue := w.resetDue, lineLow := w.lineLow, lowFor := w.lowFor, lowFromReady := w.lowFromReady
    lowInReply := w.lowInReply }

/-- A cycle only counts the other items. -/
theorem ServiceUnit.tick_withSlots (u : ServiceUnit) (toolLow : Bool) :
    u.tick toolLow = u.countCycle.withSlots (u.tick toolLow) :=
  calc u.tick toolLow
      = (u.afterCount toolLow).withSlots (u.tick toolLow) := rfl
    _ = (u.afterEdge toolLow).withSlots (u.tick toolLow) :=
        (congrArg (ServiceUnit.withSlots · (u.tick toolLow)) (u.afterCount_keeps toolLow)).trans rfl
    _ = u.advance.withSlots (u.tick toolLow) :=
        (congrArg (ServiceUnit.withSlots · (u.tick toolLow)) (u.afterEdge_keeps toolLow)).trans rfl
    _ = u.countCycle.withSlots (u.tick toolLow) :=
        (congrArg (ServiceUnit.withSlots · (u.tick toolLow)) u.advance_keeps).trans rfl

/-! ## The line's events at a clock cycle (R159 to R162, R168) -/

section

variable {u : ServiceUnit} {toolLow : Bool}

theorem ServiceUnit.mem_dueTick {c : Instr} (event : c ∈ lineEvents) :
    c ∈ u.dueTick toolLow ↔
      (c = .partToToolSlot ∧ (u.falls toolLow && u.advance.slotTimer == 32 &&
        (u.advance.receiver == .executing || u.advance.receiver == .answering)) = true) ∨
      (c = .gapTimeout ∧ (u.receiver.inCommand && u.gapTimer == 1024) = true) ∨
      (c = .syncReply ∧ (u.receiver == .syncReply && u.replyTimer == 111) = true) ∨
      (c = .lineError ∧ (!u.lineIsLow toolLow && u.lineLow && u.receiver != .syncReply && u.slotTimer == 32 &&
        decide (u.lowFor < 200) && !u.lowInReply) = true) ∨
      (c = .sync ∧ (!u.lineIsLow toolLow && u.lineLow && u.receiver != .syncReply && decide (200 ≤ u.lowFor)) = true) ∨
      (c = .serviceReset ∧ u.advance.resetDue = true) := by
  have notReceived : c ∉ u.commandDue (u.tick toolLow) := not_mem_commandDue (List.mem_append_left _ event)
  unfold ServiceUnit.dueTick
  simp only [List.mem_append, mem_due, notReceived, or_false, or_assoc, ServiceUnit.falls]
  tauto

theorem ServiceUnit.mem_dueTick_of_received {c : Instr} (received : c ∈ u.commandDue (u.tick toolLow)) :
    c ∈ u.dueTick toolLow := by
  unfold ServiceUnit.dueTick
  simp only [List.mem_append, received, or_true, true_or]

theorem ServiceUnit.slot_mem_dueTick :
    .partToToolSlot ∈ u.dueTick toolLow ↔
      u.falls toolLow = true ∧ 31 ≤ u.slotTimer ∧
        (u.receiver = .executing ∨ ∃ bit rest, u.receiver = .answering ∧ u.answer = some (bit :: rest)) := by
  rw [ServiceUnit.mem_dueTick (by simp [lineEvents])]
  simp only [Bool.and_eq_true, Bool.or_eq_true, beq_iff_eq, ServiceUnit.advance_last, reduceCtorEq, false_and, or_false,
    true_and, and_assoc]
  exact and_congr_right fun _ => and_congr_right ServiceUnit.advance_sends

theorem ServiceUnit.gapTimeout_mem_dueTick :
    .gapTimeout ∈ u.dueTick toolLow ↔ u.receiver.inCommand = true ∧ u.gapTimer = 1024 := by
  rw [ServiceUnit.mem_dueTick (by simp [lineEvents])]
  simp

theorem ServiceUnit.syncReply_mem_dueTick :
    .syncReply ∈ u.dueTick toolLow ↔ u.receiver = .syncReply ∧ u.replyTimer = 111 := by
  rw [ServiceUnit.mem_dueTick (by simp [lineEvents])]
  simp

theorem ServiceUnit.lineError_mem_dueTick :
    .lineError ∈ u.dueTick toolLow ↔
      (¬u.lineIsLow toolLow = true ∧ u.lineLow = true) ∧ u.receiver ≠ .syncReply ∧ u.slotTimer = 32 ∧ u.lowFor < 200 ∧
        u.lowInReply = false := by
  rw [ServiceUnit.mem_dueTick (by simp [lineEvents])]
  simp [and_assoc]

theorem ServiceUnit.sync_mem_dueTick :
    .sync ∈ u.dueTick toolLow ↔
      (¬u.lineIsLow toolLow = true ∧ u.lineLow = true) ∧ u.receiver ≠ .syncReply ∧ 200 ≤ u.lowFor := by
  rw [ServiceUnit.mem_dueTick (by simp [lineEvents])]
  simp [and_assoc]

theorem ServiceUnit.serviceReset_mem_dueTick : .serviceReset ∈ u.dueTick toolLow ↔ u.advance.resetDue = true := by
  rw [ServiceUnit.mem_dueTick (by simp [lineEvents])]
  simp

/-- Only the line posts its events at a clock cycle. -/
theorem mem_pending_line {s : State} (empty : s.pending = []) {c : Instr} (event : c ∈ lineEvents) :
    c ∈ (s.runCycle.post s.dueTick).pending ↔ c ∈ s.service.dueTick s.pins.toolLow := by
  have notBlocks : c ∉ s.blocks.dueTick s.pins := by
    intro blocks
    have timeDue := State.timeDue_of_mem blocks
    simp only [lineEvents, List.mem_cons, List.not_mem_nil, or_false] at event
    obtain rfl | rfl | rfl | rfl | rfl | rfl := event <;> exact timeDue
  have notLink : c ∉ s.path.dueTick s.pins.select := by
    intro link
    simp only [lineEvents, List.mem_cons, List.not_mem_nil, or_false] at event
    unfold PathUnit.dueTick at link
    split at link
    · split at link
      · split at link
        · obtain rfl := (mem_due.1 link).2
          simp at event
        · obtain rfl := List.mem_singleton.1 link
          simp at event
      · cases link
    · cases link
  rw [mem_pending_cycle empty]
  simp only [notBlocks, notLink, or_false]

end

/-! ## What a clock cycle counts (R159, R160) -/

section

variable (u : ServiceUnit) (toolLow : Bool)

theorem ServiceUnit.tick_slotTimer :
    (u.tick toolLow).slotTimer = if u.restarts toolLow then 0 else min 32 (u.slotTimer + 1) := by
  show (u.afterCount toolLow).slotTimer = _
  rw [ServiceUnit.afterCount_keeps, ServiceUnit.afterEdge_keeps, ServiceUnit.advance_slotTimer]

theorem ServiceUnit.tick_gapTimer :
    (u.tick toolLow).gapTimer =
      if u.restarts toolLow then 0
      else if u.receiver.inCommand then (if u.gapTimer < 1024 then u.gapTimer + 1 else u.gapTimer)
      else min 1025 (u.gapTimer + 1) := by
  show (u.afterCount toolLow).gapTimer = _
  rw [ServiceUnit.afterCount_keeps, ServiceUnit.afterEdge_keeps, ServiceUnit.advance_gapTimer]

theorem ServiceUnit.tick_lowFor :
    (u.tick toolLow).lowFor =
      if (if u.receiver = .syncReply then toolLow = true else u.lineIsLow toolLow = true) then min 200 (u.lowFor + 1)
      else 0 := by
  show (if (if u.receiver = .syncReply then toolLow else u.lineIsLow toolLow) = true then satSucc 200 u.lowFor else 0) = _
  rw [satSucc_eq_min]
  by_cases reply : u.receiver = .syncReply
  · simp only [reply, if_true]
  · simp only [reply, if_false]

/-- The mark of a low judged as begun in READY (R159). -/
theorem ServiceUnit.tick_lowFromReady :
    (u.tick toolLow).lowFromReady = true ↔
      (u.falls toolLow = true ∧ 31 ≤ u.slotTimer ∧ u.advance.receiver = .ready) ∨
        (31 ≤ u.slotTimer ∧ ¬u.falls toolLow = true ∧ (u.lineIsLow toolLow = true ∨ u.lineLow = true) ∧
          u.lowFromReady = true) ∨
        (¬31 ≤ u.slotTimer ∧ u.lowFromReady = true) := by
  show u.advance.nextLowFromReady (u.lineIsLow toolLow || u.lineLow) (u.falls toolLow) = true ↔ _
  have mark : u.advance.lowFromReady = u.lowFromReady :=
    (congrArg ServiceUnit.lowFromReady u.advance_keeps).trans rfl
  unfold ServiceUnit.nextLowFromReady
  rw [mark]
  by_cases last : 31 ≤ u.slotTimer
  · rw [if_pos (ServiceUnit.advance_last.2 last)]
    cases u.falls toolLow <;> simp [last]
  · rw [if_neg (mt ServiceUnit.advance_last.1 last)]
    simp [last]

theorem ServiceUnit.tick_lowInReply :
    (u.tick toolLow).lowInReply = true ↔
      (u.falls toolLow = true ∧ u.receiver = .syncReply) ∨
        (¬u.falls toolLow = true ∧ u.lineIsLow toolLow = true ∧ u.lowInReply = true) := by
  show (if u.falls toolLow then u.receiver == .syncReply else u.lineIsLow toolLow && u.lowInReply) = true ↔ _
  cases u.falls toolLow <;> simp

end

/-! ## What a clock cycle does in each receiver (R159, R161, R168) -/

section

variable {u : ServiceUnit} (toolLow : Bool)

theorem ServiceUnit.tick_of_receiving_or_sync
    (idle : u.receiver = .awaitSync ∨ u.receiver = .syncReply ∨ u.receiver = .receiving) :
    (u.tick toolLow).receiver = u.receiver := by
  obtain ⟨executing, answering, notReady⟩ :
      u.receiver ≠ .executing ∧ u.receiver ≠ .answering ∧ u.receiver ≠ .ready := by
    rcases idle with is | is | is <;> rw [is] <;> simp
  have stays : u.advance.receiver = u.receiver := by rw [ServiceUnit.advance_of_idle executing answering]; rfl
  rw [ServiceUnit.tick_receiver_of_busy toolLow (by rw [stays]; exact notReady), stays]

theorem ServiceUnit.tick_of_executing (executing : u.receiver = .executing) :
    (u.tick toolLow).receiver = (if 31 ≤ u.slotTimer ∧ u.sentBit = some true then .answering else .executing) ∧
      (u.tick toolLow).answer = u.answer ∧ (u.tick toolLow).resetDue = u.resetDue := by
  have advanced := ServiceUnit.advance_of_executing executing
  obtain ⟨answer, resetDue⟩ := u.tick_answer toolLow
  have busy : u.advance.receiver ≠ .ready := by
    rw [advanced]
    dsimp only
    split <;> simp
  exact ⟨(ServiceUnit.tick_receiver_of_busy toolLow busy).trans (by rw [advanced]),
    answer.trans (by rw [advanced]; rfl), resetDue.trans (by rw [advanced]; rfl)⟩

/-- An answer whose slot or bits are not over goes on (R161). -/
theorem ServiceUnit.tick_of_answering (answering : u.receiver = .answering) (goesOn : u.advance = u.countCycle) :
    (u.tick toolLow).receiver = .answering ∧ (u.tick toolLow).answer = u.answer ∧
      (u.tick toolLow).resetDue = u.resetDue := by
  obtain ⟨answer, resetDue⟩ := u.tick_answer toolLow
  have receiver : u.advance.receiver = .answering := by rw [goesOn]; exact answering
  refine ⟨?_, answer.trans (by rw [goesOn]; rfl), resetDue.trans (by rw [goesOn]; rfl)⟩
  exact (ServiceUnit.tick_receiver_of_busy toolLow (by rw [receiver]; simp)).trans receiver

theorem ServiceUnit.tick_receiver_of_ready (ends : 31 ≤ u.slotTimer) (ready : u.advance.receiver = .ready) :
    (u.tick toolLow).receiver = if u.falls toolLow = true then .receiving else .ready := by
  rw [ServiceUnit.tick_receiver, ready]
  exact if_congr ⟨fun ⟨falling, _, _⟩ => falling, fun falling => ⟨falling, ends, rfl⟩⟩ rfl rfl

/-- The last slot of an answer ends in READY, or at once in the next command (R161, R168). -/
theorem ServiceUnit.tick_of_answered (answering : u.receiver = .answering) (sent : u.answer = some [])
    (ends : 31 ≤ u.slotTimer) :
    (u.tick toolLow).receiver = (if u.falls toolLow = true then .receiving else .ready) ∧
      (u.tick toolLow).command = none ∧ (u.tick toolLow).answer = none ∧
      (u.tick toolLow).resetDue = decide (u.command = some [9]) := by
  have advanced := ServiceUnit.advance_of_answered answering (by simp [sent])
  rw [if_pos ends] at advanced
  obtain ⟨answer, resetDue⟩ := u.tick_answer toolLow
  obtain ⟨-, command⟩ := ServiceUnit.tick_bits_of_quiet (u := u) toolLow (.inl (by rw [answering]; simp))
  have discarded : u.advance.command = none := by rw [advanced]
  refine ⟨ServiceUnit.tick_receiver_of_ready toolLow ends (by rw [advanced]), command.trans ?_,
    answer.trans (by rw [advanced]), resetDue.trans ?_⟩
  · rw [(u.afterEdge_command toolLow).1, discarded, ite_self]
  · rw [advanced]
    exact beq_eq_decide ..

/-- In RECEIVING nothing but cycle 12 of a slot counts a bit (R159). -/
theorem ServiceUnit.tick_of_receiving (receiving : u.receiver = .receiving) (other : u.slotTimer ≠ 11) :
    (u.tick toolLow).bits = u.bits ∧ (u.tick toolLow).command = u.command := by
  obtain ⟨bits, command⟩ := ServiceUnit.tick_bits_of_quiet (u := u) toolLow (.inr other)
  have advanced := ServiceUnit.advance_of_idle (u := u) (by rw [receiving]; simp) (by rw [receiving]; simp)
  have busy : u.advance.receiver ≠ .ready := by
    rw [advanced, show u.countCycle.receiver = .receiving from receiving]
    simp
  obtain ⟨command', bits'⟩ := u.afterEdge_command toolLow
  rw [if_neg fun ⟨_, _, ready⟩ => busy ready, advanced] at command' bits'
  exact ⟨bits.trans bits', command.trans command'⟩

/-- At cycle 12 of a slot in RECEIVING a bit is counted (R159). -/
theorem ServiceUnit.afterCount_of_bit (receiving : u.receiver = .receiving) (eleven : u.slotTimer = 11) :
    u.afterCount toolLow = u.countCycle.countBit (u.lineIsLow toolLow) := by
  have advanced := ServiceUnit.advance_of_idle (u := u) (by rw [receiving]; simp) (by rw [receiving]; simp)
  have still : u.afterEdge toolLow = u.countCycle :=
    (ServiceUnit.afterEdge_of_still fun ⟨_, last⟩ => by omega).trans advanced
  have twelve : u.countCycle.slotTimer = 12 := by
    show satSucc 32 u.slotTimer = 12
    rw [eleven]
    rfl
  unfold ServiceUnit.afterCount
  rw [still, if_pos ⟨receiving, twelve⟩]

theorem ServiceUnit.tick_of_bit (receiving : u.receiver = .receiving) (eleven : u.slotTimer = 11)
    (few : (u.bits ++ [!u.lineIsLow toolLow]).length ≠ 8) :
    (u.tick toolLow).bits = u.bits ++ [!u.lineIsLow toolLow] ∧ (u.tick toolLow).command = u.command := by
  have counted := ServiceUnit.afterCount_of_bit toolLow receiving eleven
  have notLast : u.countCycle.countBit (u.lineIsLow toolLow) =
      { u.countCycle with bits := u.bits ++ [!u.lineIsLow toolLow] } := if_neg few
  rw [notLast] at counted
  exact ⟨(congrArg ServiceUnit.bits counted :), (congrArg ServiceUnit.command counted :)⟩

/-- The eighth bit completes a byte, and the byte that completes a command is due as that command (R159, R161). -/
theorem ServiceUnit.tick_of_byte (receiving : u.receiver = .receiving) (eleven : u.slotTimer = 11)
    (full : (u.bits ++ [!u.lineIsLow toolLow]).length = 8) :
    let bytes := u.command.getD [] ++ [byteOfBits (u.bits ++ [!u.lineIsLow toolLow])]
    (u.tick toolLow).bits = [] ∧ (u.tick toolLow).command = some bytes ∧
      ∀ c, receivedCommand bytes = some c → c ∈ u.dueTick toolLow := by
  intro bytes
  have counted := ServiceUnit.afterCount_of_bit toolLow receiving eleven
  have last : u.countCycle.countBit (u.lineIsLow toolLow) = { u.countCycle with bits := [], command := some bytes } :=
    if_pos full
  rw [last] at counted
  have command : (u.tick toolLow).command = some bytes := (congrArg ServiceUnit.command counted :)
  have receiver : (u.tick toolLow).receiver = .receiving := (congrArg ServiceUnit.receiver counted).trans receiving
  have longer : some bytes ≠ u.command := by
    intro same
    have length := congrArg (fun command : Option (List Byte) => (command.getD []).length) same
    simp only [Option.getD_some, bytes, List.length_append, List.length_singleton] at length
    omega
  refine ⟨(congrArg ServiceUnit.bits counted :), command, fun c spelt => ?_⟩
  refine ServiceUnit.mem_dueTick_of_received (mem_commandDue.2 ⟨receiver, ?_, ?_⟩)
  · exact command ▸ longer
  · rw [command]
    exact spelt

end

/-- A slot that begins sends its bit (R159, R161). -/
theorem exec_partToToolSlot {s : State} (run : s.phase = .running) (slot : s.service.slotTimer = 32) :
    exec .partToToolSlot s = .next { s with service := s.service.sendSlot } := by
  change Host.Outcome.next _ = _
  rw [State.whileRunning, if_pos run, if_pos slot]
  rfl

/-- Settles O59: the slots that send, the table of the commands' bytes, and the clock cycle item by item, receiver by
receiver and event by event. -/
theorem answerSlotsSendTheAnswer : Obligations.AnswerSlotsSendTheAnswer := by
  refine ⟨?slots, ?spelling, ?cycle⟩
  case slots =>
    intro s run slot u sends
    have sent := exec_partToToolSlot run slot
    refine ⟨fun executing unanswered => sent.trans ?_, fun executing completed => sent.trans ?_,
      fun waits => sent.trans ?_, fun bit rest answering answer => sent.trans ?_⟩
    · have none : s.service.answer.isSome = false :=
        Option.isSome_eq_false_iff.2 (Option.isNone_iff_eq_none.2 unanswered)
      rw [ServiceUnit.sendSlot_executing (u := s.service) executing none]
      rfl
    · rw [ServiceUnit.sendSlot_executing (u := s.service) executing completed]
      rfl
    · rw [ServiceUnit.sendSlot_awaitSync (u := s.service) waits]
    · rw [ServiceUnit.sendSlot_answering (u := s.service) answering answer]
  case spelling =>
    intro bytes c fits
    rw [receivedCommand_iff]
    simp only [dataFits_iff_ite]
    exact Iff.rfl
  case cycle =>
    intro s run empty u low falls rises ends inCommand answered ready restarts lasts
    have isLow : u.lineIsLow s.pins.toolLow = true ↔ low := ServiceUnit.lineIsLow_iff
    have isFalling : u.falls s.pins.toolLow = true ↔ falls := by rw [ServiceUnit.falls_iff, isLow]
    have isRestart : u.restarts s.pins.toolLow ↔ restarts :=
      and_congr isFalling (and_congr_right ServiceUnit.advance_receives)
    have inside : u.receiver.inCommand = true ↔ inCommand := Receiver.inCommand_iff
    have kept := u.tick_withSlots s.pins.toolLow
    have bit : (!u.lineIsLow s.pins.toolLow) = decide ¬low := by
      rw [Bool.eq_iff_iff, decide_eq_true_iff, Bool.not_eq_true', ← Bool.not_eq_true, isLow]
    refine ⟨_, step_cycle run empty, isLow, (u.tick_slotTimer _).trans ?slotTimer, (u.tick_gapTimer _).trans ?gapTimer,
      (congrArg ServiceUnit.driveFor kept).trans rfl, ?replyTimer, (u.tick_lowFor _).trans ?lowFor,
      (u.tick_lowFromReady _).trans ?lowFromReady, (u.tick_lowInReply _).trans ?lowInReply,
      (congrArg ServiceUnit.permit kept).trans rfl, (congrArg ServiceUnit.lastResult kept).trans rfl,
      (congrArg ServiceUnit.collided kept).trans rfl, (congrArg ServiceUnit.sentBit kept).trans rfl,
      (congrArg ServiceUnit.heldAccess kept).trans rfl, (congrArg ServiceUnit.heldOption kept).trans rfl,
      ServiceUnit.tick_of_receiving_or_sync _, ServiceUnit.tick_of_executing _,
      fun bit rest answering answer =>
        ServiceUnit.tick_of_answering _ answering (ServiceUnit.advance_of_answering answering answer),
      fun answering sent => ⟨fun still => ?answerStays, fun last => ?answerEnds⟩, fun idle => ?ready, ?slot, ?lineError,
      ?sync, ?syncReply, ?gap, fun receiving eleven => ?bit, ServiceUnit.tick_of_receiving _⟩
    case replyTimer =>
      rw [ite_and]
      exact (congrArg ServiceUnit.replyTimer kept).trans rfl
    case answerStays =>
      have advanced := ServiceUnit.advance_of_answered answering (by simp [sent])
      rw [if_neg still] at advanced
      obtain ⟨receiver, answer, -⟩ := ServiceUnit.tick_of_answering s.pins.toolLow answering advanced
      exact ⟨receiver, answer.trans sent⟩
    case answerEnds =>
      obtain ⟨receiver, command, answer, resetDue⟩ := ServiceUnit.tick_of_answered s.pins.toolLow answering sent last
      have advanced : u.advance.resetDue = decide (u.command = some [9]) :=
        (u.tick_answer s.pins.toolLow).2.symm.trans resetDue
      refine ⟨receiver.trans (if_congr isFalling rfl rfl), command, answer, resetDue, ?_⟩
      rw [mem_pending_line empty (by simp [lineEvents]), ServiceUnit.serviceReset_mem_dueTick]
      show u.advance.resetDue = true ↔ _
      rw [advanced, decide_eq_true_iff]
    case ready =>
      have advanced := ServiceUnit.advance_of_idle (u := u) (by rw [idle]; simp) (by rw [idle]; simp)
      have receiver : u.advance.receiver = .ready := by rw [advanced]; exact idle
      refine (u.tick_receiver s.pins.toolLow).trans ?_
      exact if_congr ⟨fun ⟨falling, last, _⟩ => ⟨isFalling.1 falling, last⟩,
        fun ⟨falling, last⟩ => ⟨isFalling.2 falling, last, receiver⟩⟩ rfl receiver
    case slot =>
      rw [mem_pending_line empty (by simp [lineEvents]), ServiceUnit.slot_mem_dueTick]
      exact and_congr_left' isFalling
    case lineError =>
      rw [mem_pending_line empty (by simp [lineEvents]), ServiceUnit.lineError_mem_dueTick]
      exact and_congr_left' (and_congr_left' (not_congr isLow))
    case sync =>
      rw [mem_pending_line empty (by simp [lineEvents]), ServiceUnit.sync_mem_dueTick]
      exact and_congr_left' (and_congr_left' (not_congr isLow))
    case syncReply => rw [mem_pending_line empty (by simp [lineEvents]), ServiceUnit.syncReply_mem_dueTick]
    case gap =>
      rw [mem_pending_line empty (by simp [lineEvents]), ServiceUnit.gapTimeout_mem_dueTick]
      exact and_congr_left' inside
    case bit =>
      intro bits
      have read : bits = u.bits ++ [!u.lineIsLow s.pins.toolLow] := by rw [bit]
      rw [read]
      refine ⟨fun few => ServiceUnit.tick_of_bit _ receiving eleven (Nat.ne_of_lt few), fun full => ?_⟩
      obtain ⟨counted, command, posts⟩ := ServiceUnit.tick_of_byte s.pins.toolLow receiving eleven full
      exact ⟨counted, command, fun c spelt => (mem_pending_cycle empty).2 (.inl (posts c spelt))⟩
    case slotTimer => exact if_congr isRestart rfl rfl
    case gapTimer => exact if_congr isRestart rfl (if_congr inside rfl rfl)
    case lowFor =>
      refine if_congr ?_ rfl rfl
      show _ ↔ if u.receiver = .syncReply then s.pins.toolLow = true else low
      rw [isLow]
    case lowFromReady =>
      rw [isFalling, isLow]
      exact or_congr_left (and_congr_right fun _ => and_congr_right ServiceUnit.advance_ready)
    case lowInReply => rw [isFalling, isLow]

end Sys2Proof.Machine
end

section
/-! SUPPORT. What the delivery of the fields of a pocket record comes to (R8, R31, R35, R60, R67, R85). -/

namespace Sys2Proof.Machine
namespace Blocks

variable {b : Blocks} {p : Pocket} {j : Judged}

/-- The fields in effect before any owner compares one (R8). -/
def tuned (b : Blocks) (p : Pocket) (j : Judged) : Blocks := b.modPocket p fun u => { u with tuning := j.tuning }

theorem tuned_pocket : (b.tuned p j).pocket p = { b.pocket p with tuning := j.tuning } := b.modPocket_pocket p _

/-! ## The compares of an owner (R31, R35, R60, R67) -/

theorem judgeCoolingTake_of_other {taken : List PocketField} (time : .coolTime ∉ taken) (temp : .coolSet ∉ taken) :
    b.judgeCoolingTake p taken = b := by
  simp [judgeCoolingTake, time, temp]

theorem judgeCoolingTake_of_not_cooling {taken : List PocketField} (other : (b.pocket p).cycle.state ≠ .cooling) :
    b.judgeCoolingTake p taken = b := if_neg fun met => other met.1

theorem judgeTimeLimit_of_other (drying : (b.pocket p).cycle.state ≠ .drying)
    (extending : (b.pocket p).cycle.state ≠ .extending) : b.judgeTimeLimit p = b := by
  unfold judgeTimeLimit
  dsimp only
  split
  · split
    · contradiction
    · contradiction
    · rfl
  · rfl

theorem judgeTimeLimit_of_early (early : (b.pocket p).limitReached = false) : b.judgeTimeLimit p = b :=
  if_neg (by simp [early])

theorem judgeRunEnd_of_not_run (other : (b.pocket p).drum.state ≠ .run) : b.judgeRunEnd p = b := by
  unfold judgeRunEnd
  dsimp only
  split
  · contradiction
  · rfl

theorem judgeCoast_of_not_coast (other : (b.pocket p).drum.state ≠ .coast) : b.judgeCoast p = b :=
  if_neg fun met => other met.1

/-! ## The delivery -/

/-- A pocket in IDLE with its drum STOPPED compares the heat fields alone. -/
theorem deliver_of_idle (idle : (b.pocket p).cycle.state = .idle) (stopped : (b.pocket p).drum.state = .stopped) :
    b.deliver p j = if j.taken.any isHeatField then (b.tuned p j).evaluateWants p else b.tuned p j := by
  have cycle : ((b.tuned p j).pocket p).cycle.state = .idle := by rw [tuned_pocket]; exact idle
  have drum : ((b.tuned p j).pocket p).drum.state = .stopped := by rw [tuned_pocket]; exact stopped
  have limit : (b.tuned p j).judgeTimeLimit p = b.tuned p j :=
    judgeTimeLimit_of_other (by rw [cycle]; simp) (by rw [cycle]; simp)
  have cooling : (b.tuned p j).judgeCoolingTake p j.taken = b.tuned p j :=
    judgeCoolingTake_of_not_cooling (by rw [cycle]; simp)
  have runEnd : (b.tuned p j).judgeRunEnd p = b.tuned p j := judgeRunEnd_of_not_run (by rw [drum]; simp)
  have coast : (b.tuned p j).judgeCoast p = b.tuned p j := judgeCoast_of_not_coast (by rw [drum]; simp)
  unfold deliver
  dsimp only
  rw [← tuned, limit, ite_self, cooling, runEnd, ite_self, coast, ite_self]

/-- The compare of one delivered field by its owner. -/
def compared (b : Blocks) (p : Pocket) : PocketField → Blocks
  | .timeLimit => b.judgeTimeLimit p
  | .coolTime => b.judgeCoolingTake p [.coolTime]
  | .coolSet => b.judgeCoolingTake p [.coolSet]
  | .fwdRun | .revRun => if (b.pocket p).drum.request == .run then b.judgeRunEnd p else b
  | .pause => b.judgeCoast p
  | .heatSet | .heatBand | .stage2Offset | .heatLevel => b.evaluateWants p
  | _ => b

/-- With one field delivered its owner alone compares. -/
theorem deliver_only {f : PocketField} (taken : j.taken = [f]) : b.deliver p j = (b.tuned p j).compared p f := by
  unfold deliver
  rw [taken, ← tuned]
  cases f
  case coolTime | coolSet => rfl
  all_goals
    dsimp only
    rw [judgeCoolingTake_of_other (by decide) (by decide)]
    rfl

theorem deliver_only_heat {f : PocketField} (taken : j.taken = [f])
    (heat : f = .heatSet ∨ f = .heatBand ∨ f = .stage2Offset ∨ f = .heatLevel) :
    b.deliver p j = (b.tuned p j).evaluateWants p := by
  rw [deliver_only taken]
  rcases heat with rfl | rfl | rfl | rfl <;> rfl

/-- A field that no owner compares comes into effect, and nothing else. -/
theorem deliver_only_other {f : PocketField} (taken : j.taken = [f])
    (other : f ∉ [.timeLimit, .coolTime, .coolSet, .fwdRun, .revRun, .pause])
    (notHeat : ¬(f = .heatSet ∨ f = .heatBand ∨ f = .stage2Offset ∨ f = .heatLevel)) :
    b.deliver p j = b.tuned p j := by
  rw [deliver_only taken]
  cases f
  case timeLimit | coolTime | coolSet | fwdRun | revRun | pause => simp at other
  case heatSet | heatBand | stage2Offset | heatLevel => simp at notHeat
  all_goals rfl

/-! ## What each compare comes to -/

/-- The time limit judged, no more than one lockout condition holding (R31, R41). -/
theorem judgeTimeLimit_of_oneCause (one : b.OneCause p) :
    b.judgeTimeLimit p =
      if (b.pocket p).limitReached = true ∧
          ((b.pocket p).cycle.state = .drying ∨ (b.pocket p).cycle.state = .extending) then
        b.modCycle p fun c =>
          { c with
            state := .cooling, startTarget := none, lockout := b.causeAtEntry p
            endFlag := some (if c.state = .extending then .confirmedDry
              else if (b.pocket p).tuning.mode = 1 then .timedEnd else .limitReached) }
      else b := by
  by_cases reached : (b.pocket p).limitReached = true
  · by_cases drying : (b.pocket p).cycle.state = .drying
    · refine Eq.trans ?_ (if_pos ⟨reached, .inl drying⟩).symm
      rw [judgeTimeLimit_of_drying reached drying, enterCooling_eq one]
      exact modPocket_congr (by simp [drying])
    · by_cases extending : (b.pocket p).cycle.state = .extending
      · refine Eq.trans ?_ (if_pos ⟨reached, .inr extending⟩).symm
        rw [judgeTimeLimit_of_extending reached extending, enterCooling_eq one]
        exact modPocket_congr (by simp [extending])
      · rw [judgeTimeLimit_of_other drying extending, if_neg]
        exact fun met => met.2.elim drying extending
  · rw [judgeTimeLimit_of_early (by simpa using reached), if_neg fun met => reached met.1]

theorem judgeCoolingTake_time :
    b.judgeCoolingTake p [.coolTime] =
      if (b.pocket p).cycle.state = .cooling ∧ (b.pocket p).tuning.coolTime * 60 ≤ (b.pocket p).cycle.cool then
        b.coolEnd p
      else b := by
  unfold judgeCoolingTake
  simp

theorem judgeCoolingTake_temp {te : Int} (filtered : (b.pocket p).exhaust.filtered = some te)
    (ok : (b.pocket p).exhaust.fault = none) :
    b.judgeCoolingTake p [.coolSet] =
      if (b.pocket p).cycle.state = .cooling ∧ te ≤ b.coolTarget p then b.coolEnd p else b := by
  unfold judgeCoolingTake
  simp [filtered, ok]

theorem judgeCoolingTake_of_no_temp
    (none : (b.pocket p).cycle.state ≠ .cooling ∨ (b.pocket p).exhaust.fault.isSome = true ∨
      (b.pocket p).exhaust.filtered = none) : b.judgeCoolingTake p [.coolSet] = b := by
  rcases none with other | faulted | unfiltered
  · exact judgeCoolingTake_of_not_cooling other
  · have fault : (b.pocket p).exhaust.fault.isNone = false := by
      rw [Option.isNone_eq_false_iff]; exact faulted
    unfold judgeCoolingTake
    simp [fault]
  · unfold judgeCoolingTake
    simp [unfiltered]

/-- The end of a cycle run judged (R59, R60). -/
theorem judgeRunEnd_of_cycleRun (cycleRun : (b.pocket p).drum.request = .run) :
    b.judgeRunEnd p =
      if (b.pocket p).drum.state = .run ∧ ¬((b.pocket p).drum.dir = .fwd ∧ (b.pocket p).tuning.revRun = 0) ∧
          (if (b.pocket p).drum.dir = .fwd then (b.pocket p).tuning.fwdRun else (b.pocket p).tuning.revRun) * 1000 ≤
            (b.pocket p).drum.runTimer then
        b.modDrum p fun d =>
          { d with
            state := .coast, coastTimer := 0, silence := 0
            nextDir := if (b.pocket p).tuning.revRun = 0 then .fwd else d.dir.flip }
      else b := by
  have length := runLength_eq (b.pocket p).tuning (b.pocket p).drum
  simp only [cycleRun, ne_eq, reduceCtorEq, not_false_eq_true, true_and, if_false] at length
  by_cases state : (b.pocket p).drum.state = .run
  · by_cases endless : (b.pocket p).drum.dir = .fwd ∧ (b.pocket p).tuning.revRun = 0
    · rw [if_pos endless] at length
      rw [if_neg fun met => met.2.1 endless]
      unfold judgeRunEnd
      simp only [state, length]
    · rw [if_neg endless] at length
      by_cases due : (if (b.pocket p).drum.dir = .fwd then (b.pocket p).tuning.fwdRun
          else (b.pocket p).tuning.revRun) * 1000 ≤ (b.pocket p).drum.runTimer
      · rw [judgeRunEnd_of_due state length due, if_pos ⟨state, endless, due⟩]
        exact modDrum_congr (by simp [Drum.endRun, Drum.toCoast, flippedNext, cycleRun])
      · rw [if_neg fun met => due met.2.2]
        unfold judgeRunEnd
        simp only [state, length, due, if_false]
  · rw [judgeRunEnd_of_not_run state, if_neg fun met => state met.1]

/-- A coast judged (R67). -/
theorem judgeCoast_eq :
    b.judgeCoast p =
      if (b.pocket p).drum.state = .coast ∧ (b.pocket p).drum.confirmed = true ∧
          (b.pocket p).tuning.pause * 1000 ≤ (b.pocket p).drum.coastTimer then b.afterStopping p
      else b := by
  unfold judgeCoast
  rw [enterStopped_eq]

theorem tuned_oneCause (one : b.OneCause p) : (b.tuned p j).OneCause p := by
  have conditions : (b.tuned p j).lockoutConditions p = b.lockoutConditions p := modPocket_lockoutConditions rfl
  rw [OneCause, conditions, tuned_pocket]
  exact one

theorem tuned_causeAtEntry : (b.tuned p j).causeAtEntry p = b.causeAtEntry p := by
  have conditions : (b.tuned p j).lockoutConditions p = b.lockoutConditions p := modPocket_lockoutConditions rfl
  rw [causeAtEntry, conditions, tuned_pocket]
  rfl

theorem tuned_coolTarget :
    (b.tuned p j).coolTarget p =
      match b.inlet.fault, b.inlet.filtered with
      | none, some t => max (j.tuning.coolSet : Int) (t + 20)
      | _, _ => j.tuning.coolSet := by
  cases p <;> rfl

theorem isHeatField_iff {f : PocketField} :
    isHeatField f = true ↔ f = .heatSet ∨ f = .heatBand ∨ f = .stage2Offset ∨ f = .heatLevel := by
  cases f <;> simp [isHeatField]

theorem any_isHeatField {taken : List PocketField} :
    taken.any isHeatField = true ↔
      ∃ f, (f = .heatSet ∨ f = .heatBand ∨ f = .stage2Offset ∨ f = .heatLevel) ∧ f ∈ taken := by
  simp only [List.any_eq_true, isHeatField_iff, and_comm]

/-- What the delivery of the fields comes to: for a pocket at rest, and for one field alone. -/
theorem deliver_spec (b : Blocks) (p : Pocket) (j : Judged) :
    let u := b.pocket p
    let t := b.tuned p j
    let target : Int :=
      match b.inlet.fault, b.inlet.filtered with
      | none, some t => max (j.tuning.coolSet : Int) (t + 20)
      | _, _ => j.tuning.coolSet
    let only := fun f => j.taken = [f]
    let heat := fun f => f = PocketField.heatSet ∨ f = .heatBand ∨ f = .stage2Offset ∨ f = .heatLevel
    let comes := fun delivered : Blocks => b.deliver p j = delivered
    (u.cycle.state = .idle → u.drum.state = .stopped →
      ((∃ f, heat f ∧ f ∈ j.taken) → comes (t.evaluateWants p)) ∧
        ((∀ f, heat f → f ∉ j.taken) → comes t)) ∧
    (only .timeLimit → b.OneCause p →
      comes
        (if j.tuning.timeLimit * 60 ≤ u.cycle.elapsed ∧ (u.cycle.state = .drying ∨ u.cycle.state = .extending) then
          t.modCycle p fun c =>
            { c with
              state := .cooling, startTarget := none, lockout := b.causeAtEntry p
              endFlag := some (if c.state = .extending then .confirmedDry
                else if j.tuning.mode = 1 then .timedEnd else .limitReached) }
        else t)) ∧
    (only .coolTime →
      comes (if u.cycle.state = .cooling ∧ j.tuning.coolTime * 60 ≤ u.cycle.cool then t.coolEnd p else t)) ∧
    (only .coolSet →
      (u.cycle.state ≠ .cooling ∨ u.exhaust.fault.isSome ∨ u.exhaust.filtered = none → comes t) ∧
      ∀ te, u.exhaust.filtered = some te → u.cycle.state = .cooling → u.exhaust.fault = none →
        comes (if te ≤ target then t.coolEnd p else t)) ∧
    (only .fwdRun ∨ only .revRun →
      let seconds := if u.drum.dir = .fwd then j.tuning.fwdRun else j.tuning.revRun
      let endless := u.drum.dir = .fwd ∧ j.tuning.revRun = 0
      comes
        (if u.drum.state = .run ∧ u.drum.request = .run ∧ ¬endless ∧ seconds * 1000 ≤ u.drum.runTimer then
          t.modDrum p fun d =>
            { d with
              state := .coast, coastTimer := 0, silence := 0
              nextDir := if j.tuning.revRun = 0 then .fwd else d.dir.flip }
        else t)) ∧
    (only .pause →
      comes
        (if u.drum.state = .coast ∧ u.drum.confirmed = true ∧ j.tuning.pause * 1000 ≤ u.drum.coastTimer then
          t.afterStopping p
        else t)) ∧
    ∀ f, only f →
      (heat f → comes (t.evaluateWants p)) ∧
        (f ∉ [.timeLimit, .coolTime, .coolSet, .fwdRun, .revRun, .pause] → ¬heat f → comes t) := by
  intro u t target only heat comes
  have unit : t.pocket p = { u with tuning := j.tuning } := tuned_pocket
  refine ⟨fun idle stopped => ⟨fun warm => ?_, fun cold => ?_⟩, fun taken one => ?_, fun taken => ?_,
    fun taken => ⟨fun still => ?_, fun te filtered cooling ok => ?_⟩, fun taken => ?_, fun taken => ?_,
    fun f taken => ⟨deliver_only_heat taken, deliver_only_other taken⟩⟩
  · exact (deliver_of_idle idle stopped).trans (if_pos (any_isHeatField.2 warm))
  · refine (deliver_of_idle idle stopped).trans (if_neg fun any => ?_)
    obtain ⟨f, warm, inside⟩ := any_isHeatField.1 any
    exact cold f warm inside
  · refine (deliver_only taken).trans ((judgeTimeLimit_of_oneCause (tuned_oneCause one)).trans ?_)
    rw [tuned_causeAtEntry, tuned_pocket]
    simp only [PocketUnit.limitReached, decide_eq_true_eq]
    rfl
  · refine (deliver_only taken).trans (judgeCoolingTake_time.trans ?_)
    rw [tuned_pocket]
  · refine (deliver_only taken).trans (judgeCoolingTake_of_no_temp ?_)
    rw [tuned_pocket]
    exact still
  · have limit : t.coolTarget p = target := tuned_coolTarget
    refine (deliver_only taken).trans ((judgeCoolingTake_temp (te := te) ?_ ?_).trans ?_)
    · rw [tuned_pocket]; exact filtered
    · rw [tuned_pocket]; exact ok
    · refine if_congr ?_ rfl rfl
      rw [limit, tuned_pocket]
      exact and_iff_right cooling
  · intro seconds endless
    have ended : b.deliver p j = if (t.pocket p).drum.request == .run then t.judgeRunEnd p else t := by
      rcases taken with taken | taken <;> exact deliver_only taken
    refine ended.trans ?_
    by_cases cycleRun : u.drum.request = .run
    · have request : (t.pocket p).drum.request = .run := by rw [unit]; exact cycleRun
      rw [request, if_pos (beq_self_eq_true _), judgeRunEnd_of_cycleRun request, unit]
      exact if_congr (and_congr_right fun _ => (and_iff_right cycleRun).symm) rfl rfl
    · rw [unit, if_neg (by simpa using cycleRun), if_neg fun met => cycleRun met.2.1]
  · refine (deliver_only taken).trans (judgeCoast_eq.trans ?_)
    rw [tuned_pocket]

end Blocks
end Sys2Proof.Machine
end

section
/-! SUPPORT. The records that a STORE frame makes due, in whatever order they are taken (R5, R6). -/

namespace Sys2Proof.Machine

/-! ## The SEQ values that a frame keeps (R5) -/

theorem demandByte_recordOffset (r : RecordId) : demandByte (recordOffset r) = .seq r := by
  obtain ⟨_ | _⟩ | _ := r <;> rfl

theorem demandByte_eq_seq {off : Nat} {r : RecordId} (seq : demandByte off = .seq r) : off = recordOffset r := by
  have pocket : ∀ {p : Pocket} {k : Nat}, pocketRecordByte p k = .seq r → k = 0 ∧ r = .pocket p := by
    intro p k seq
    unfold pocketRecordByte at seq
    split at seq
    · rename_i zero
      exact ⟨zero, (DemandByte.seq.inj seq).symm⟩
    · split at seq
      · cases seq
      · split at seq <;> cases seq
  unfold demandByte at seq
  split at seq
  · obtain ⟨zero, rfl⟩ := pocket seq
    exact zero
  · split at seq
    · obtain ⟨zero, rfl⟩ := pocket seq
      show off = 0x40
      omega
    · split at seq
      · rename_i common
        cases seq
        exact common
      · split at seq <;> cases seq

theorem recordOffset_injective : Function.Injective recordOffset := by
  intro r q same
  have seq := demandByte_recordOffset r
  rw [same, demandByte_recordOffset] at seq
  exact (DemandByte.seq.inj seq).symm

theorem FrameState.kept_keep (f : FrameState) (r q : RecordId) (v : Byte) :
    (f.keep r v).kept q = if q = r then some v else f.kept q := by
  obtain ⟨_ | _⟩ | _ := r <;> obtain ⟨_ | _⟩ | _ := q <;> rfl

theorem Blocks.reloadFreshness_demandBase (b : Blocks) (p : Pocket) :
    (b.reloadFreshness p).demandBase = b.demandBase := by cases p <;> rfl

theorem PathUnit.setStaging_lastSeq (u : PathUnit) (r : RecordId) (i : Nat) (v : Byte) (q : RecordId) :
    ((u.setStaging r ((u.staging r).touch i v)).staging q).lastSeq = (u.staging q).lastSeq := by
  obtain ⟨_ | _⟩ | _ := r <;> obtain ⟨_ | _⟩ | _ := q <;> rfl

variable {s : State}

/-- A captured byte is kept as SEQ of the record whose SEQ byte it is, and no last-taken value moves. -/
theorem State.storeByte_kept (captures : s.captures = true) {f : FrameState} (frame : s.path.frame = some f)
    (addr : BitVec 17) (v : Byte) :
    (∃ g, (s.storeByte addr v).path.frame = some g ∧ ∀ r, g.kept r =
      if pageOffset s.blocks.demandBase addr = some (recordOffset r) then some v else f.kept r) ∧
    (s.storeByte addr v).blocks.demandBase = s.blocks.demandBase ∧
    ∀ r, ((s.storeByte addr v).path.staging r).lastSeq = (s.path.staging r).lastSeq := by
  cases place : pageOffset s.blocks.demandBase addr with
  | none =>
    rw [State.storeByte_of_outside place]
    exact ⟨⟨f, frame, fun r => by simp⟩, rfl, fun _ => rfl⟩
  | some off =>
    have apart : (∀ q, demandByte off ≠ .seq q) → ∀ r, f.kept r =
        if some off = some (recordOffset r) then some v else f.kept r := by
      intro notSeq r
      rw [if_neg fun same => notSeq r ?_]
      rw [Option.some.inj same]
      exact demandByte_recordOffset r
    cases byte : demandByte off with
    | seq q =>
      rw [State.storeByte_keepsSeq captures place byte]
      refine ⟨⟨f.keep q v, by simp [frame], fun r => ?_⟩, rfl, fun r => ?_⟩
      · have same : some off = some (recordOffset r) ↔ r = q := by
          rw [Option.some_inj, demandByte_eq_seq byte]
          exact ⟨fun offsets => (recordOffset_injective offsets).symm, fun is => by rw [is]⟩
        simp only [FrameState.kept_keep, same]
      · obtain ⟨_ | _⟩ | _ := r <;> rfl
    | keepalive p =>
      rw [State.storeByte_keepalive captures place byte]
      exact ⟨⟨f, frame, apart (by simp [byte])⟩, Blocks.reloadFreshness_demandBase _ p, fun _ => rfl⟩
    | field q i =>
      rw [State.storeByte_field captures place byte]
      exact ⟨⟨f, (PathUnit.setStaging_rest _ _ _).2.2.trans frame, apart (by simp [byte])⟩, rfl,
        s.path.setStaging_lastSeq q i v⟩
    | ordinary =>
      rw [State.storeByte_of_ordinary place byte]
      exact ⟨⟨f, frame, apart (by simp [byte])⟩, rfl, fun _ => rfl⟩

/-- The last of a run of bytes at a place. -/
def LastAt (data : List Byte) (place : Nat → Prop) (v : Byte) : Prop :=
  ∃ i, data[i]? = some v ∧ place i ∧ ∀ k, i < k → k < data.length → ¬place k

theorem lastAt_cons {v w : Byte} {rest : List Byte} {place : Nat → Prop} :
    LastAt (v :: rest) place w ↔
      LastAt rest (fun i => place (i + 1)) w ∨ (w = v ∧ place 0 ∧ ∀ k, k < rest.length → ¬place (k + 1)) := by
  constructor
  · rintro ⟨i | i, byte, here, last⟩
    · exact .inr ⟨(Option.some.inj byte).symm, here, fun k below => last (k + 1) (by omega) (by simpa using below)⟩
    · exact .inl ⟨i, byte, here, fun k above below => last (k + 1) (by omega) (by simpa using below)⟩
  · rintro (⟨i, byte, here, last⟩ | ⟨rfl, here, last⟩)
    · refine ⟨i + 1, byte, here, fun k above below => ?_⟩
      obtain ⟨k, rfl⟩ : ∃ n, k = n + 1 := ⟨k - 1, by omega⟩
      exact last k (by omega) (by simpa using below)
    · refine ⟨0, rfl, here, fun k above below => ?_⟩
      obtain ⟨k, rfl⟩ : ∃ n, k = n + 1 := ⟨k - 1, by omega⟩
      exact last k (by simpa using below)

/-- The SEQ values kept after a run of bytes are the last ones stored, or those kept before. -/
theorem State.storeBytes_kept (captures : s.captures = true) {f : FrameState} (frame : s.path.frame = some f)
    (addr : BitVec 17) (data : List Byte) :
    (∃ g, (s.storeBytes addr data).path.frame = some g ∧ ∀ r v, g.kept r = some v ↔
      LastAt data (fun i => pageOffset s.blocks.demandBase (addr + BitVec.ofNat 17 i) = some (recordOffset r)) v ∨
      (f.kept r = some v ∧ ∀ i, i < data.length →
        pageOffset s.blocks.demandBase (addr + BitVec.ofNat 17 i) ≠ some (recordOffset r))) ∧
    ∀ r, ((s.storeBytes addr data).path.staging r).lastSeq = (s.path.staging r).lastSeq := by
  induction data generalizing s addr f with
  | nil => exact ⟨⟨f, frame, fun r v => by simp [LastAt]⟩, fun _ => rfl⟩
  | cons v rest ih =>
    obtain ⟨⟨g, frame₁, kept₁⟩, base, seqs₁⟩ := State.storeByte_kept captures frame addr v
    obtain ⟨⟨h, frame₂, kept₂⟩, seqs₂⟩ := ih ((s.storeByte_rest addr v).2.2.2.trans captures) frame₁ (addr + 1)
    refine ⟨⟨h, frame₂, fun r w => ?_⟩, fun r => (seqs₂ r).trans (seqs₁ r)⟩
    have next : ∀ i, addr + 1 + BitVec.ofNat 17 i = addr + BitVec.ofNat 17 (i + 1) := add_ofNat_succ addr
    have first : addr + BitVec.ofNat 17 0 = addr := by simp
    rw [kept₂, lastAt_cons, kept₁, base]
    simp only [next, first]
    rw [or_assoc]
    refine or_congr_right ?_
    by_cases here : pageOffset s.blocks.demandBase addr = some (recordOffset r)
    · have noEarlier : ¬∀ i, i < (v :: rest).length →
          pageOffset s.blocks.demandBase (addr + BitVec.ofNat 17 i) ≠ some (recordOffset r) :=
        fun none => none 0 (by simp) (by rw [first]; exact here)
      rw [or_iff_left fun both => noEarlier both.2, if_pos here, Option.some.injEq]
      exact and_congr eq_comm (and_iff_right here).symm
    · simp only [here, if_false, false_and, and_false, false_or]
      refine and_congr_right fun _ => ⟨fun later i below => ?_, fun all i below => all (i + 1) (by simpa using below)⟩
      cases i with
      | zero => rw [first]; exact here
      | succ i => exact later i (by simpa using below)

/-! ## The records due (R6) -/

theorem State.takeAll_eq_foldl (s : State) (order : List (RecordId × Byte)) :
    s.takeAll order = order.foldl (fun s rv => s.takeRecord rv.1 rv.2) s := by
  induction order generalizing s with
  | nil => rfl
  | cons rv rest ih => exact ih (s.takeRecord rv.1 rv.2)

theorem State.mem_dueTakes {f : FrameState} (frame : s.path.frame = some f) {r : RecordId} {v : Byte} :
    (r, v) ∈ s.dueTakes ↔ v ≠ (s.path.staging r).lastSeq ∧ f.kept r = some v := by
  have all : r ∈ [RecordId.pocket .a, .pocket .b, .common] := by obtain ⟨_ | _⟩ | _ := r <;> simp
  unfold State.dueTakes
  rw [frame]
  simp only [List.mem_filterMap]
  constructor
  · rintro ⟨q, -, due⟩
    split at due
    · rename_i w kept
      obtain ⟨new, same⟩ := Option.ite_none_right_eq_some.1 due
      cases same
      exact ⟨new, kept⟩
    · cases due
  · rintro ⟨new, kept⟩
    refine ⟨r, all, ?_⟩
    rw [kept]
    exact if_pos new

theorem State.dueTakes_nodup (s : State) : (s.dueTakes.map Prod.fst).Nodup := by
  have fst : ∀ (g : RecordId → Option (RecordId × Byte)) (l : List RecordId),
      (∀ r rv, g r = some rv → rv.1 = r) → ((l.filterMap g).map Prod.fst).Sublist l := by
    intro g l same
    induction l with
    | nil => exact .slnil
    | cons r rest ih =>
      rw [List.filterMap_cons]
      split
      · exact ih.cons r
      · rename_i rv found
        rw [List.map_cons, same r rv found]
        exact ih.cons_cons r
  unfold State.dueTakes
  split
  · exact List.nodup_nil
  · refine (fst _ _ fun r rv due => ?_).nodup (by decide)
    split at due
    · obtain ⟨-, same⟩ := Option.ite_none_right_eq_some.1 due
      rw [← Option.some.inj same]
    · cases due

/-- A STORE frame takes each record due once, one after the other (R6; log entry 4). -/
theorem State.passStore_takes (powered : s.phase ≠ .off) (captures : s.captures = true) (access : s.path.access = none)
    (addr : BitVec 24) (data : List Byte) (ends : FrameEnd (List Bool)) :
    let code := s.blocks.storeCode :: addressBytes addr ++ data
    let passed := (s.beginFrame.noteLink code ends.cut [] []).storeBytes (startAddress addr) data
    let seqAt := fun i r => pageOffset s.blocks.demandBase (startAddress addr + BitVec.ofNat 17 i) = some (recordOffset r)
    ∃ (order : List (RecordId × Byte)) (n : Nat),
      exec (.storeFrame addr data ends) s = .next
        ((order.foldl (fun (s : State) rv => s.takeRecord rv.1 rv.2)
          { passed with blocks := { passed.blocks with draws := n } }).endFrame ends.again) ∧
      (order.map Prod.fst).Nodup ∧
      ∀ r v, (r, v) ∈ order ↔ v ≠ (s.path.staging r).lastSeq ∧
        ∃ i, data[i]? = some v ∧ seqAt i r ∧ ∀ k, i < k → k < data.length → ¬seqAt k r := by
  intro code passed seqAt
  have within : passed = s.stored addr data ends := by
    simp only [passed, code]
    rw [State.beginFrame_of_noAccess s access]
    rfl
  have capturing : passed.captures = true := by
    rw [within]
    exact ((s.inStore addr data ends).storeBytes_rest (startAddress addr) data).2.2.2.trans captures
  obtain ⟨⟨g, frame, kept⟩, seqs⟩ :=
    State.storeBytes_kept (s := s.inStore addr data ends) captures rfl (startAddress addr) data
  refine ⟨(shuffle 3 passed.blocks.draws passed.dueTakes).1, (shuffle 3 passed.blocks.draws passed.dueTakes).2, ?_, ?_,
    fun r v => ?_⟩
  · rw [exec_storeFrame powered, State.passStore_eq (State.calm_of_noAccess access), ← within, if_pos capturing,
      State.frameEnd, State.takeAll_eq_foldl]
    rfl
  · exact ((shuffle_perm _ _ _).map Prod.fst).nodup_iff.2 passed.dueTakes_nodup
  · rw [(shuffle_perm _ _ _).mem_iff, within, State.stored, State.mem_dueTakes frame, seqs, kept]
    refine and_congr_right fun _ => or_iff_left fun both => ?_
    obtain ⟨_ | _⟩ | _ := r <;> cases both.1

end Sys2Proof.Machine
end

section
/-! SUPPORT. The take of a pocket record by the frame of a new SEQ (R6 to R8, R10). -/

namespace Sys2Proof.Machine

/-! ## The bytes of the frame (R4, R5) -/

/-- The state when a new SEQ and what may stand beside it are stored: the record staged as given, SEQ kept. -/
def State.seqStored (s : State) (p : Pocket) (seq : Byte) (st : Staging) (data : List Byte) : State :=
  let at_ := s.demandAddress (recordOffset (.pocket p))
  let t := s.inFrame (s.blocks.storeCode :: addressBytes at_ ++ data)
  { t with
    ram := writeRamBytes (startAddress at_) data s.ram
    path :=
      { t.path with
        frame := some (FrameState.keep { seqA := none, seqB := none, seqCommon := none } (.pocket p) seq) }.setStaging
        (.pocket p) st }

/-- The record staged by the ACTION code that stands beside a SEQ, if one does. -/
def Staging.withAction (record : Staging) : Option Byte → Staging
  | none => record
  | some code => record.touch 1 code

variable {s : State} {p : Pocket} {seq : Byte}

theorem State.storeBytes_seq (captures : s.captures = true) (p : Pocket) (seq : Byte) (action : Option Byte) :
    (s.inFrame (s.blocks.storeCode :: addressBytes (s.demandAddress (recordOffset (.pocket p))) ++
        (seq :: action.toList))).storeBytes
      (startAddress (s.demandAddress (recordOffset (.pocket p)))) (seq :: action.toList) =
      s.seqStored p seq ((s.path.staging (.pocket p)).withAction action) (seq :: action.toList) := by
  cases action with
  | some code => exact State.storeBytes_commit captures p seq code
  | none =>
    have place : pageOffset s.blocks.demandBase (startAddress (s.demandAddress (recordOffset (.pocket p)))) =
        some (recordOffset (.pocket p)) := by
      rw [startAddress_demandAddress]
      exact pageOffset_base_add _ (by cases p <;> decide)
    refine (State.storeByte_seq (s := s.inFrame _) captures rfl p place seq).trans ?_
    cases p <;> rfl

theorem State.seqStored_captures (st : Staging) (data : List Byte) :
    (s.seqStored p seq st data).captures = s.captures := by cases p <;> rfl

theorem State.seqStored_staging (st : Staging) (data : List Byte) :
    (s.seqStored p seq st data).path.staging (.pocket p) = st := PathUnit.setStaging_staging ..

theorem State.seqStored_dueTakes {st : Staging} (new : st.lastSeq ≠ seq) (data : List Byte) :
    (s.seqStored p seq st data).dueTakes = [(.pocket p, seq)] := by
  have frame : (s.seqStored p seq st data).path.frame =
      some (FrameState.keep { seqA := none, seqB := none, seqCommon := none } (.pocket p) seq) := by cases p <;> rfl
  rw [← State.seqStored_staging (s := s) (p := p) (seq := seq) st data] at new
  unfold State.dueTakes
  rw [frame]
  cases p <;> simp [FrameState.keep, FrameState.kept, new.symm]

/-! ## What a take leaves alone -/

theorem Blocks.deliver_reads (b : Blocks) (p : Pocket) (st : Staging) :
    ((b.deliver p (judgeFields (b.pocket p) st)).pocket p).tuning = (judgeFields (b.pocket p) st).tuning ∧
      (b.deliver p (judgeFields (b.pocket p) st)).working = b.working := by
  obtain ⟨c, frame, delivered⟩ := b.deliver_frame (P := fun _ => False) p (judgeFields (b.pocket p) st) fun taken =>
    Nat.lt_of_lt_of_le (by decide : 0 < PocketField.pause.range.1) (judgeFields_takenInRange _ st _ taken).1
  have tuning : (c.pocket p).tuning = (judgeFields (b.pocket p) st).tuning := by
    rw [frame.tuning, b.modPocket_pocket]
  have working : c.working = b.working := frame.working.trans (b.modPocket_working p _)
  rw [delivered]
  split
  · refine ⟨?_, (c.modPocket_working p _).trans working⟩
    rw [Blocks.evaluateWants, c.modPocket_pocket, (PocketUnit.evaluateWants_rest _).2.1, tuning]
  · exact ⟨tuning, working⟩

theorem Blocks.answerAction_reads (b : Blocks) (p : Pocket) (a : Action) :
    ((b.answerAction p a).2.pocket p).tuning = (b.pocket p).tuning ∧ (b.answerAction p a).2.working = b.working := by
  have reads : ∀ {c d : Blocks}, c.SeqFrame (fun _ => False) d →
      (d.pocket p).tuning = (c.pocket p).tuning ∧ d.working = c.working := fun frame => ⟨frame.tuning p, frame.working⟩
  cases a with
  | start =>
    obtain ⟨tuning, working⟩ := reads (Blocks.runRequest_frame (b.modPocket p (PocketUnit.startCycle b.freshSeconds)) p)
    rw [b.modPocket_pocket] at tuning
    unfold Blocks.answerAction Blocks.answerStart
    dsimp only
    split
    case h_3 => exact ⟨rfl, rfl⟩
    all_goals
      split
      · exact ⟨tuning, working.trans (b.modPocket_working p _)⟩
      · exact ⟨rfl, rfl⟩
  | pause => exact reads (b.answerPause_frame p)
  | resume => exact reads (b.answerResume_frame p)
  | advance => exact reads (b.answerAdvance_frame p)
  | abort => exact reads (b.answerAbort_frame p)
  | clear => exact reads (b.answerClear_frame p)

theorem Blocks.answerCode_reads (b : Blocks) (p : Pocket) (code : Nat) :
    ((b.answerCode p code).2.pocket p).tuning = (b.pocket p).tuning ∧ (b.answerCode p code).2.working = b.working := by
  unfold Blocks.answerCode
  split
  · exact ⟨rfl, rfl⟩
  · split
    · exact ⟨rfl, rfl⟩
    · split
      · exact ⟨rfl, rfl⟩
      · exact b.answerAction_reads p _

/-! ## The take (R7, R8, R10) -/

theorem TakeResult.raises_iff_not_quiet {r : TakeResult} :
    r.raises = true ↔ ¬(r.clamped = 0 ∧ r.torn = 0 ∧ r.refused = 0 ∧ (r.action = .none ∨ r.action = .accepted)) := by
  have answer : (match r.action with | .none | .accepted => false | .notNow | .illegal | .held => true) = true ↔
      ¬(r.action = .none ∨ r.action = .accepted) := by
    cases r.action <;> simp
  unfold TakeResult.raises
  rw [Bool.or_eq_true, Bool.or_eq_true, Bool.or_eq_true, bne_iff_ne, bne_iff_ne, bne_iff_ne]
  refine (or_congr_right answer).trans ?_
  tauto

/-- The blocks that a take leaves before its end, the action having been answered. -/
def Blocks.takeEnds (b answered : Blocks) (p : Pocket) (r : TakeResult) : Blocks :=
  let fresh := answered.modCycle p fun c => { c with freshness := b.freshSeconds }
  if r.clamped = 0 ∧ r.torn = 0 ∧ r.refused = 0 ∧ (r.action = .none ∨ r.action = .accepted) then fresh
  else fresh.withPending 0x4000

theorem Blocks.takeEnds_eq {b answered : Blocks} (working : answered.working = b.working) (p : Pocket) (r : TakeResult) :
    (answered.reloadFreshness p).raiseTake r = b.takeEnds answered p r := by
  have seconds : answered.freshSeconds = b.freshSeconds := congrArg (rowByte · 0x12) working
  rw [Blocks.raiseTake_eq, Blocks.reloadFreshness, seconds]
  simp only [TakeResult.raises_iff_not_quiet, Blocks.takeEnds, ite_not]

theorem Blocks.takeEnds_pocket (b answered : Blocks) (p : Pocket) (r : TakeResult) :
    (b.takeEnds answered p r).pocket p =
      { answered.pocket p with cycle := { (answered.pocket p).cycle with freshness := b.freshSeconds } } := by
  unfold Blocks.takeEnds
  dsimp only
  split <;> cases p <;> rfl

/-- The action's answer at a take, the fields having been delivered (R8, R21). -/
def Blocks.takeAnswer (b : Blocks) (p : Pocket) (st : Staging) : ActionResult × Blocks :=
  if st.touched.getD 1 false = true then
    (b.deliver p (judgeFields (b.pocket p) st)).answerCode p (st.bytes.getD 1 0).toNat
  else (.none, b.deliver p (judgeFields (b.pocket p) st))

/-- The result of a take (R10). -/
def Blocks.takeResult (b : Blocks) (p : Pocket) (st : Staging) (seq : Byte) : TakeResult :=
  let j := judgeFields (b.pocket p) st
  { seq := seq, action := (b.takeAnswer p st).1, clamped := j.clamped, torn := j.torn, refused := j.refused }

theorem Blocks.takeAnswer_reads (b : Blocks) (p : Pocket) (st : Staging) :
    ((b.takeAnswer p st).2.pocket p).tuning = (judgeFields (b.pocket p) st).tuning ∧
      (b.takeAnswer p st).2.working = b.working := by
  obtain ⟨tuning, working⟩ := b.deliver_reads p st
  unfold Blocks.takeAnswer
  split
  · obtain ⟨tuning', working'⟩ := (b.deliver p (judgeFields (b.pocket p) st)).answerCode_reads p (st.bytes.getD 1 0).toNat
    exact ⟨tuning'.trans tuning, working'.trans working⟩
  · exact ⟨tuning, working⟩

theorem Blocks.takePocket_eq (b : Blocks) (p : Pocket) (st : Staging) (seq : Byte) :
    b.takePocket p st seq =
      (b.takeResult p st seq, (b.takeEnds (b.takeAnswer p st).2 p (b.takeResult p st seq)).settle) := by
  rw [← Blocks.takeEnds_eq (b.takeAnswer_reads p st).2]
  rfl

theorem State.takePocketRecord_eq (s : State) (p : Pocket) (seq : Byte) :
    let st := s.path.staging (.pocket p)
    s.takePocketRecord p seq =
      { s with
        blocks := (s.blocks.takeEnds (s.blocks.takeAnswer p st).2 p (s.blocks.takeResult p st seq)).settle
        path :=
          (s.path.setStaging (.pocket p)
            { bytes := restoreStaging (judgeFields (s.blocks.pocket p) st).tuning st.bytes
              touched := st.touched.map fun _ => false
              lastSeq := seq }).setResult (.pocket p) (s.blocks.takeResult p st seq) } := by
  intro st
  have tuning : ((s.blocks.takeEnds (s.blocks.takeAnswer p st).2 p (s.blocks.takeResult p st seq)).settle.pocket p).tuning =
      (judgeFields (s.blocks.pocket p) st).tuning := by
    rw [Blocks.settle_tuning, Blocks.takeEnds_pocket]
    exact (s.blocks.takeAnswer_reads p st).1
  unfold State.takePocketRecord
  simp only [Blocks.takePocket_eq]
  rw [tuning]
  rfl

/-- The frame of a new SEQ takes the record as it is then staged. -/
theorem State.exec_seqFrame (run : s.phase = .running) (captures : s.captures = true) (access : s.path.access = none)
    (new : (s.path.staging (.pocket p)).lastSeq ≠ seq) (action : Option Byte) :
    let st := (s.path.staging (.pocket p)).withAction action
    let addr := s.demandAddress (recordOffset (.pocket p))
    let data := seq :: action.toList
    exec (.storeFrame addr data .clean) s = .next
      { s.afterFrame (s.blocks.storeCode :: addressBytes addr ++ data) .clean [] [] with
        blocks := (s.blocks.takeEnds (s.blocks.takeAnswer p st).2 p (s.blocks.takeResult p st seq)).settle
        ram := writeRamBytes (startAddress addr) data s.ram
        path :=
          { (s.path.setStaging (.pocket p)
              { bytes := restoreStaging (judgeFields (s.blocks.pocket p) st).tuning st.bytes
                touched := st.touched.map fun _ => false
                lastSeq := seq }).setResult (.pocket p) (s.blocks.takeResult p st seq) with
            frame := none, passThrough := false } } := by
  intro st addr data
  have last : st.lastSeq ≠ seq := by cases action <;> exact new
  rw [exec_storeFrame (by simp [run]), State.passStore_of_due access (State.storeBytes_seq captures p seq action)
    ((State.seqStored_captures _ _).trans captures) (State.seqStored_dueTakes last _), State.takeRecord,
    State.takePocketRecord_eq, State.seqStored_staging]
  cases p <;> rfl

end Sys2Proof.Machine
end

section
/-! SUPPORT. The commit of a pocket record (R6 to R8, R10, R31 to R85). -/

namespace Sys2Proof.Machine

variable {s : State} {b : Blocks} {p : Pocket} {st : Staging}

/-- With ACTION untouched the take answers nothing (R8). -/
theorem Blocks.takeAnswer_of_untouched (untouched : st.touched.getD 1 false = false) :
    b.takeAnswer p st = (.none, b.deliver p (judgeFields (b.pocket p) st)) := if_neg (by rw [untouched]; simp)

theorem Blocks.takeEnds_listsAgree (lists : b.ListsAgree) (seq : Byte) :
    (b.takeEnds (b.takeAnswer p st).2 p (b.takeResult p st seq)).ListsAgree := by
  rw [← Blocks.takeEnds_eq (b.takeAnswer_reads p st).2]
  exact (b.pocketTaken_keeps (P := fun _ => False) p st seq).lists lists

/-- The gate is judged by a SPEED_LOW taken alone (R119). -/
theorem Blocks.takeEnds_gate (untouched : st.touched.getD 1 false = false)
    (taken : (judgeFields (b.pocket p) st).taken = [.speedLow]) (lists : b.ListsAgree) (seq : Byte) :
    ((b.takeEnds (b.takeAnswer p st).2 p (b.takeResult p st seq)).settle.pocket p).dryness.gateOpen = true ↔
      ((b.pocket p).cycle.state = .drying ∨ (b.pocket p).cycle.state = .extending) ∧ (b.pocket p).drum.state = .run ∧
        (judgeFields (b.pocket p) st).tuning.speedLow ≤ (b.pocket p).drum.speed := by
  have settled := Blocks.settle_settled _ (Blocks.takeEnds_listsAgree (p := p) (st := st) lists seq)
  have delivered : (b.takeAnswer p st).2 = b.tuned p (judgeFields (b.pocket p) st) := by
    rw [Blocks.takeAnswer_of_untouched untouched]
    exact Blocks.deliver_only_other taken (by decide) (by decide)
  rw [(settled.2.1 p).2, PocketUnit.gateHolds, Blocks.settle_cycle, Blocks.settle_drum, Blocks.settle_tuning,
    Blocks.takeEnds_pocket, delivered, Blocks.tuned_pocket]
  simp only [Bool.and_eq_true, CycleState.heating_iff, beq_iff_eq, decide_eq_true_eq, and_assoc]

/-- The pocket with the fields of a take in effect. -/
def PocketUnit.withTuning (u : PocketUnit) (t : Tuning) : PocketUnit := { u with tuning := t }

section

variable (untouched : st.touched.getD 1 false = false) {f : PocketField}
  (taken : (judgeFields (b.pocket p) st).taken = [f])
  (heat : f = .heatSet ∨ f = .heatBand ∨ f = .stage2Offset ∨ f = .heatLevel)

include untouched taken heat

/-- The wants are evaluated at the take of a heat field alone (R85). -/
theorem Blocks.takeEnds_wants (seq : Byte) :
    let u := (b.pocket p).withTuning (judgeFields (b.pocket p) st).tuning
    let v := (b.takeEnds (b.takeAnswer p st).2 p (b.takeResult p st seq)).settle.pocket p
    v.stage1.want = u.evaluateWants.stage1.want ∧ v.stage2.want = u.evaluateWants.stage2.want := by
  intro u v
  have delivered : (b.takeAnswer p st).2.pocket p = u.evaluateWants := by
    rw [Blocks.takeAnswer_of_untouched untouched]
    show (b.deliver p _).pocket p = _
    rw [Blocks.deliver_only_heat taken heat, Blocks.evaluateWants, Blocks.modPocket_pocket, Blocks.tuned_pocket]
    rfl
  have unit := b.takeEnds_pocket (b.takeAnswer p st).2 p (b.takeResult p st seq)
  rw [delivered] at unit
  obtain ⟨-, tuning, exhaust, -⟩ := u.evaluateWants_rest
  refine Blocks.settle_wants_of_evaluated (u := u) ?_ ?_
  · rw [unit]
    exact ⟨rfl, rfl⟩
  · rw [unit]
    exact ⟨exhaust, tuning⟩

theorem Blocks.takeEnds_wants_of_none (none : (b.pocket p).exhaust.filtered = none) (seq : Byte) :
    let v := (b.takeEnds (b.takeAnswer p st).2 p (b.takeResult p st seq)).settle.pocket p
    v.stage1.want = (b.pocket p).stage1.want ∧ v.stage2.want = (b.pocket p).stage2.want := by
  obtain ⟨want₁, want₂⟩ := Blocks.takeEnds_wants untouched taken heat seq
  have stand := PocketUnit.evaluateWants_of_none
    (u := (b.pocket p).withTuning (judgeFields (b.pocket p) st).tuning) none
  exact ⟨want₁.trans (congrArg (·.stage1.want) stand), want₂.trans (congrArg (·.stage2.want) stand)⟩

/-- The bands of the fields taken, at the filtered temperature that stands (R85, R86). -/
theorem Blocks.takeEnds_wants_of_filtered {te : Int} (filtered : (b.pocket p).exhaust.filtered = some te) (seq : Byte) :
    let t := (judgeFields (b.pocket p) st).tuning
    let v := (b.takeEnds (b.takeAnswer p st).2 p (b.takeResult p st seq)).settle.pocket p
    let want := fun (met : Prop) (upper : Int) (before after : Bool) =>
      (¬met → after = false) ∧ (met → te ≤ upper - t.heatBand → after = true) ∧
        (met → upper - t.heatBand < te → upper ≤ te → after = false) ∧
        (met → upper - t.heatBand < te → te < upper → after = before)
    want (1 ≤ t.heatLevel) t.heatSet (b.pocket p).stage1.want v.stage1.want ∧
      want (2 ≤ t.heatLevel) (t.heatSet - t.stage2Offset) (b.pocket p).stage2.want v.stage2.want := by
  intro t v want
  obtain ⟨want₁, want₂⟩ := Blocks.takeEnds_wants untouched taken heat seq
  have evaluated := PocketUnit.evaluateWants_of_filtered (u := (b.pocket p).withTuning t) filtered
  have first : v.stage1.want = _ := want₁.trans (congrArg (·.stage1.want) evaluated)
  have second : v.stage2.want = _ := want₂.trans (congrArg (·.stage2.want) evaluated)
  rw [first, second]
  exact ⟨wantAt_spec (1 ≤ t.heatLevel) t.heatSet t.heatBand te _, wantAt_spec (2 ≤ t.heatLevel) _ t.heatBand te _⟩

end

/-- Settles O17: the frame of a new SEQ takes its record, what the delivery compares, and the takes of any frame. -/
theorem commitTakesTheRecord : Obligations.CommitTakesTheRecord := by
  refine ⟨?commit, fun b p st => b.deliver_spec p (judgeFields (b.pocket p) st),
    fun s addr data ends powered captures access => State.passStore_takes powered captures access addr data ends⟩
  case commit =>
    intro s p seq action run captures access new u record st j addr data delivered answer r quiet fresh before
    have takes : exec (.storeFrame addr data .clean) s = _ := State.exec_seqFrame run captures access new action
    refine ⟨takes, fun lists => ?_, fun untouched t next => ?_⟩
    · exact Blocks.settle_settled _ (Blocks.takeEnds_listsAgree (p := p) (st := st) lists seq)
    · obtain rfl := Host.Outcome.next.inj (takes.symm.trans next)
      refine ⟨fun taken lists => Blocks.takeEnds_gate untouched taken lists seq, fun taken => ?_⟩
      obtain ⟨f, only, heat⟩ : ∃ f, j.taken = [f] ∧
          (f = .heatSet ∨ f = .heatBand ∨ f = .stage2Offset ∨ f = .heatLevel) := by
        rcases taken with only | only | only | only <;> exact ⟨_, only, by simp⟩
      exact ⟨fun none => Blocks.takeEnds_wants_of_none untouched only heat none seq,
        fun te filtered => Blocks.takeEnds_wants_of_filtered untouched only heat filtered seq⟩

end Sys2Proof.Machine
end
